-- ==== Sys2Proof/Config.lean ====
section
/-!
DEFINITION. What the part fixes by its construction, and the one free value of the model.
-/

namespace Sys2Proof

namespace Config

/-- Fine units in a coarse period (Table I-2). -/
def fuPerCoarse : Nat := 4096

/-- Coarse periods in a millisecond (Table I-2). -/
def periodsPerMs : Nat := 250000

/-- The length of a table update in coarse periods (R55). -/
def updatePeriods : Nat := 500

/-- The farthest age, in coarse periods, that coarse extension reads as old (R26). -/
def oldestAge : Nat := 61440

/-- The horizon at power-on and node reset (R13). -/
def resetHorizon : Nat := 8192

/-- Entries of the Ordering Queue (R75). -/
def queueEntries : Nat := 256

/-- Cells of the Result Queue (R137). -/
def resultCells : Nat := 512

/-- The HIGH threshold at power-on and node reset (R137). -/
def resetThreshold : Nat := 384

/-- Replies the reply queue holds (R166). -/
def replyEntries : Nat := 8

/-- Words of the load buffer (R173). -/
def loadWords : Nat := 64

/-- Good FILL cells that take CONFIRMING to LOCKED, and bad cells that take LOCKED to HUNT (R156). -/
def runToChange : Nat := 4

/-- The greatest value of the sixteen-bit counts that saturate (R47, R140, R157). -/
def maxCount16 : Nat := 65535

/-- The greatest value of N, countA and countB (R101, R107). -/
def maxEdgeCount : Nat := 2 ^ 40 - 1

/-- The greatest gate index (R126). -/
def maxGateIndex : Nat := 2 ^ 32 - 1

/-- Fine units in a second times 1000: the constant of the frequency (R120). -/
def fuPerSecondMilli : Nat := 1024000000000000

/-- Family code and revision of the capability record (R168). -/
def familyCode : Nat := 0x0E16

/-- Revision of the capability record (R168). -/
def revision : Nat := 1

/-- FREE VALUE (DESIGN CHOICE, notes/assumptions/1.md). Which of several events that fall at one and
the same moment is taken first, where the spec gives them no order: the `n`-th such choice is event
number `pick n` modulo how many there are. It has no value that a proof can see. -/
opaque pick : Nat → Nat

end Config

end Sys2Proof
end

