-- ==== Sys2Proof/Word.lean ====
section
/-!
DEFINITION. The words the EN1608 deals in, and banks of a fixed number of like records.

Stamps and coarse counts are bit vectors because the spec adds, subtracts and wraps them (R2, R4).
A bank is a list that carries the proof of its length, so that a record number of the right type
always names a record.
-/

namespace Sys2Proof

/-- A stamp: a time in fine units, 59 bits (R2). -/
abbrev Stamp := BitVec 59

/-- A full coarse count, 47 bits (R1). -/
abbrev Coarse := BitVec 47

/-- A byte of a cell (R155). -/
abbrev Byte := BitVec 8

/-- A word of a staged load (R162). -/
abbrev Word16 := BitVec 16

/-- A five-symbol code group of the ring link, its first symbol the most significant bit (R155). -/
abbrev Group := BitVec 5

/-- `n` like records, held as a list of that length. -/
structure Bank (α : Type) (n : Nat) where
  cells : List α
  size_eq : cells.length = n
  deriving DecidableEq, Repr

namespace Bank

variable {α β : Type} {n : Nat}

/-- The record numbered `i`. -/
def get (b : Bank α n) (i : Fin n) : α := b.cells.get (i.cast b.size_eq.symm)

/-- The bank with the record numbered `i` replaced. -/
def set (b : Bank α n) (i : Fin n) (x : α) : Bank α n :=
  ⟨b.cells.set i.val x, by simp [b.size_eq]⟩

/-- The bank whose records are all `x`. -/
def fill (n : Nat) (x : α) : Bank α n := ⟨List.replicate n x, by simp⟩

/-- The bank whose record numbered `i` is `f i`. -/
def tabulate (f : Fin n → α) : Bank α n := ⟨(List.finRange n).map f, by simp⟩

/-- Every record changed by `f`. -/
def map (f : α → β) (b : Bank α n) : Bank β n := ⟨b.cells.map f, by simp [b.size_eq]⟩

/-- One record changed by `f`. -/
def modify (b : Bank α n) (i : Fin n) (f : α → α) : Bank α n := b.set i (f (b.get i))

end Bank

end Sys2Proof
end

