-- ==== Sys2Proof/Syntax.lean ====
section
/-!
DEFINITION. The commands and events of the EN1608: one constructor per row of the operation table.

A row that is a received cell carries the cell itself (header and payload), because a relayed cell is
sent on bit for bit (R158) and because a command's destination and tag are read from it (R162); its
other operands are the fields the part reads from that cell, as `Sys2Proof.Instr.ofCell` reads them.
A number that the spec checks against a range is a `Nat`, so that a value out of range can be given
and is refused as the spec says.
A leaf enumeration whose wire field has spare codes is given by its code (R161: the position of the
value in its list, counted from 0), so that a code that names no value can be given.
-/

namespace Sys2Proof

/-- The direction of an edge (Table I-3). -/
inductive Sense where
  | rise
  | fall
  deriving DecidableEq, Repr

/-- A data-form cell without its check byte: the header byte and payload bytes 0 to 7, byte 0 the most
significant (R155, R162). The check byte of a good cell is determined by these (R155). -/
structure Cell where
  header : Byte
  payload : BitVec 64
  deriving DecidableEq, Repr

/-- The field and value of a CHAN-WRITE (Table 3-1), enumerations and flags by their codes. -/
inductive ChanArg where
  | enable (v : Nat)
  | sense (code : Nat)
  | invert (v : Nat)
  | table (v : Nat)
  | deskew (v : Int)
  | holdoff (v : Nat)
  | prescale (v : Nat)
  | stream (v : Nat)
  /-- a field code that names no field -/
  | other (code : Nat)
  deriving DecidableEq, Repr

/-- The items of CHAN-READ (Table 3-3). -/
inductive ChanItem where
  | setup
  | scale
  | state
  | counts
  | last
  | lastFine
  | other (code : Nat)
  deriving DecidableEq, Repr

/-- The items of STATUS (R171). -/
inductive StatusItem where
  | flags
  | node
  | queue
  | load
  | tables
  | other (code : Nat)
  deriving DecidableEq, Repr

/-- The targets of LOAD-OPEN (R173): LIN t by its number, MAP, PLAN. -/
inductive LoadArg where
  | lin (t : Nat)
  | map
  | plan
  | other (code : Nat)
  deriving DecidableEq, Repr

/-- The targets of TABLE-READ (R58): LIN t by its number, HISTOGRAM. -/
inductive ReadArg where
  | lin (t : Nat)
  | histogram
  | other (code : Nat)
  deriving DecidableEq, Repr

/-- An arm source as SLOT-SET carries it (R161). -/
inductive ArmArg where
  | immediate
  | atTime
  | armEdge (channel sense : Nat)
  | other (code : Nat)
  deriving DecidableEq, Repr

/-- A gate mode as SLOT-SET carries it (R161); the active level by its code, HIGH 0 and LOW 1. -/
inductive GateArg where
  | timed
  | external (channel active : Nat)
  | plan (first : Nat)
  | openEnded
  | other (code : Nat)
  deriving DecidableEq, Repr

/-- The field and value of a SLOT-SET (Table 7-1). -/
inductive SlotArg where
  | kind (code : Nat)
  | endpointA (channel sense : Nat)
  | endpointB (present : Bool) (channel sense : Nat)
  | armSource (a : ArmArg)
  | gateMode (g : GateArg)
  | gateLength (v : Nat)
  | repeats (v : Nat)
  | samples (v : Nat)
  | restart (code : Nat)
  | sharedEdge (v : Nat)
  | closeTimeout (v : Nat)
  | report (v : Nat)
  | other (code : Nat)
  deriving DecidableEq, Repr

/-- The items of SLOT-GET (R90). -/
inductive SlotItem where
  | setup
  | gating
  | counts
  | state
  | result (segment : Nat)
  | other (code : Nat)
  deriving DecidableEq, Repr

/-- A marker source as MARK-SET carries it (R146); `other` is a source code, or a field code of
MARK-SET, that names none (R148 answers both alike). -/
inductive SourceArg where
  | off
  | level
  | gate (slot : Nat)
  | armed (slot : Nat)
  | done (slot : Nat)
  | step (slot bit : Nat)
  | divider (channel : Nat)
  | timebase (p : Nat)
  | other (code : Nat)
  deriving DecidableEq, Repr

/-- The rows of spec/opcode_table.json: the part's operations and events. -/
inductive Instr where
  /-- POWER_ON_RESET (R177) -/
  | powerOnReset
  /-- RESET_RELEASE (R177) -/
  | resetRelease
  /-- TIMEBASE_ADVANCE (R1): the end of a coarse period -/
  | timebaseAdvance
  /-- HUNT_CELL_START (R156): the twenty groups that follow a CELL-START found in HUNT -/
  | huntCellStart (groups : List Group)
  /-- CONFIRMING_FILL_CELL (R156) -/
  | confirmingFillCell
  /-- CONFIRMING_OTHER_CELL (R156) -/
  | confirmingOtherCell
  /-- LINK_SILENT_CELL_TIME (R156) -/
  | linkSilentCellTime
  /-- FILL_CELL (R158) -/
  | fillCell
  /-- BAD_CELL (R156) -/
  | badCell
  /-- RELAY_CELL (R158) -/
  | relayCell (c : Cell)
  /-- EDGE_CELL (R17) -/
  | edgeCell (c : Cell) (slice : Fin 32) (lane : Fin 4) (sense : Sense) (coarse16 : BitVec 16)
      (fine : Fin 256) (lost : Bool)
  /-- ARM_POINT_REACHED (R95) -/
  | armPointReached (slot : Fin 8)
  /-- GATE_CLOSE_REACHED (R92) -/
  | gateCloseReached (slot : Fin 8)
  /-- CLOSE_TIMEOUT_EXPIRY (R104) -/
  | closeTimeoutExpiry (slot : Fin 8)
  /-- PLAN_STEP_END (R99) -/
  | planStepEnd (slot : Fin 8)
  /-- EPOCH_CELL (R7) -/
  | epochCell (c : Cell) (e : Coarse)
  /-- TRANSMIT_SLOT_DUE (R159) -/
  | transmitSlotDue
  /-- TABLE_UPDATE_END (R55) -/
  | tableUpdateEnd (table : Fin 8)
  /-- CAL_COMPLETION (R67) -/
  | calCompletion
  /-- CAL_TIMEOUT (R66) -/
  | calTimeout
  /-- MARKER_HOLD_EXPIRY (R147) -/
  | markerHoldExpiry (marker : Fin 4)
  /-- DONE_PULSE_END (R152) -/
  | donePulseEnd (marker : Fin 4)
  /-- NAME (R167) -/
  | name (c : Cell) (address : Nat)
  /-- MODE (R167); the state by its code, UNNAMED 0, ACTIVE 1, BYPASS 2 -/
  | mode (c : Cell) (state : Nat)
  /-- IDENT (R168) -/
  | ident (c : Cell) (item : Nat)
  /-- NODE-RESET (R177) -/
  | nodeReset (c : Cell)
  /-- STATUS (R171) -/
  | status (c : Cell) (item : StatusItem)
  /-- CLEAR (R172); the first kind, LINK, is the most significant bit of the mask -/
  | clear (c : Cell) (kinds : BitVec 12) (linkErrors : Bool)
  /-- ATTN-SET (R172); the first kind, LINK, is the most significant bit of each mask -/
  | attnSet (c : Cell) (enables notices : BitVec 12) (mute : Bool)
  /-- TIME-SET HORIZON (R15) -/
  | timeSetHorizon (c : Cell) (n : Nat)
  /-- TIME-SET TRIM (R14) -/
  | timeSetTrim (c : Cell) (n : Nat)
  /-- TIME-SET REPORT (R14) -/
  | timeSetReport (c : Cell)
  /-- TIME-SET COUNT (R14) -/
  | timeSetCount (c : Cell)
  /-- CHAN-WRITE (R44, R45) -/
  | chanWrite (c : Cell) (channel : Nat) (arg : ChanArg)
  /-- CHAN-READ (R46) -/
  | chanRead (c : Cell) (channel : Nat) (item : ChanItem)
  /-- LOAD-OPEN (R173) -/
  | loadOpen (c : Cell) (target : LoadArg) (first count : Nat)
  /-- LOAD-DATA (R174) -/
  | loadData (c : Cell) (words : List Word16)
  /-- LOAD-COMMIT (R175) -/
  | loadCommit (c : Cell)
  /-- LOAD-CANCEL (R175) -/
  | loadCancel (c : Cell)
  /-- TABLE-READ (R58, R73) -/
  | tableRead (c : Cell) (target : ReadArg) (index : Nat)
  /-- CAL-RUN (R63) -/
  | calRun (c : Cell) (table channel k timeout emptyLimit : Nat)
  /-- CAL-CANCEL (R70) -/
  | calCancel (c : Cell)
  /-- SLOT-SET (R89) -/
  | slotSet (c : Cell) (slot : Nat) (arg : SlotArg)
  /-- SLOT-GET (R90) -/
  | slotGet (c : Cell) (slot : Nat) (item : SlotItem)
  /-- ARM (R94) -/
  | arm (c : Cell) (slot : Nat)
  /-- ARM-AT (R95) -/
  | armAt (c : Cell) (slot time : Nat)
  /-- STOP (R111) -/
  | stop (c : Cell) (slot : Nat)
  /-- HOLD (R108) -/
  | hold (c : Cell) (slot : Nat)
  /-- RESUME (R108) -/
  | resume (c : Cell) (slot : Nat)
  /-- MARK-SET SOURCE (R148) -/
  | markSetSource (c : Cell) (marker : Nat) (source : SourceArg)
  /-- MARK-SET INVERT (R148); off 0, on 1 -/
  | markSetInvert (c : Cell) (marker value : Nat)
  /-- MARK-SET WIDTH (R147) -/
  | markSetWidth (c : Cell) (marker width : Nat)
  /-- MARK-LEVEL (R148); ACTIVE 0, INACTIVE 1 -/
  | markLevel (c : Cell) (marker level : Nat)
  /-- QUEUE-SET (R143) -/
  | queueSet (c : Cell) (threshold : Nat)
  /-- UNKNOWN_COMMAND (R165): a command code of 27 to 63 -/
  | unknownCommand (c : Cell) (code : Nat)
  deriving DecidableEq, Repr

end Sys2Proof
end

