-- ==== Sys2Proof/Machine/State.lean ====
section
/-!
DEFINITION. The state of the EN1608, every piece of it plain data, and its value after reset.
-/

namespace Sys2Proof.Machine

/-! ## The ring link (chapter 11) -/

/-- The alignment state of the Ring Receiver (R156). -/
inductive Alignment where
  | hunt
  | confirming
  | locked
  deriving DecidableEq, Repr

/-- What the transmit slot of a received cell is to carry (R158). -/
inductive TxSlot where
  /-- nothing of the ring's: the Insertion Arbiter fills it -/
  | free
  /-- the received cell -/
  | relay (c : Cell)
  deriving DecidableEq, Repr

/-- A cell on the transmit link (R155): marked FILL, or data form. -/
inductive TxCell where
  | fill
  | data (c : Cell)
  deriving DecidableEq, Repr

/-- The Ring Receiver and Transmitter (R156, R157, R159). -/
structure Link where
  align : Alignment
  goodRun : Nat
  badRun : Nat
  errors : Nat
  /-- the slots opened by received cells and not yet due, oldest first (R159) -/
  slots : List TxSlot
  /-- the cell of the transmit link's latest slot (R159) -/
  out : TxCell
  deriving DecidableEq, Repr

/-! ## The node and the timebase (R167, chapter 1) -/

/-- The node state (R167). -/
inductive NodeState where
  | unnamed
  | active
  | bypass
  deriving DecidableEq, Repr

/-- The node's address and state (R167). -/
structure Node where
  address : Nat
  state : NodeState
  deriving DecidableEq, Repr

/-- The epoch state (R6). -/
inductive EpochState where
  | unset
  | set
  deriving DecidableEq, Repr

/-- The outcome of the latest EPOCH cell (R10); `never` is NONE. -/
inductive EpochOutcome where
  | never
  | loaded
  | confirm
  | step
  deriving DecidableEq, Repr

/-- The Timebase (R1, R6, R10, R13, R14). The frontier is computed from the count and the horizon. -/
structure Timebase where
  count : Coarse
  epoch : EpochState
  trim : BitVec 10
  horizon : Nat
  outcome : EpochOutcome
  offset : Int
  deriving DecidableEq, Repr

/-! ## Capture Map and channels (chapters 2 and 3) -/

/-- What a Capture Map entry does with a cell (R18). -/
inductive MapAction where
  | pass
  | take
  | copy
  deriving DecidableEq, Repr

/-- An entry of the Capture Map (R18). -/
structure MapEntry where
  action : MapAction
  channel : Fin 16
  deriving DecidableEq, Repr

/-- The sense setting of a channel (R32). -/
inductive ChanSense where
  | rise
  | fall
  | both
  deriving DecidableEq, Repr

/-- The level of a channel's signal (R33). -/
inductive Level where
  | high
  | low
  | unknown
  deriving DecidableEq, Repr

/-- A channel's settings record (R32). -/
structure ChanSettings where
  enable : Bool
  sense : ChanSense
  invert : Bool
  table : Fin 8
  /-- signed, in fu -/
  deskew : BitVec 21
  holdoff : BitVec 16
  /-- P -/
  prescale : Nat
  stream : Bool
  deriving DecidableEq, Repr

/-- A channel's status record (R33). -/
structure ChanStatus where
  level : Level
  last : Option Stamp
  phase : Nat
  suppressed : Nat
  orderFaults : Nat
  sourceGap : Bool
  deriving DecidableEq, Repr

/-- A Channel Unit. -/
structure Channel where
  set : ChanSettings
  status : ChanStatus
  deriving DecidableEq, Repr

/-! ## Tables and calibration (chapters 4 and 5) -/

/-- The entries of a linearization table (R49). -/
abbrev Entries := Bank (BitVec 12) 256

/-- The state of a table (R51); an update in progress holds its count of periods and the merged table
it will end with (R55). -/
inductive TablePhase where
  | nominal
  | updating (count : Nat) (merged : Entries)
  | loaded
  deriving DecidableEq, Repr

/-- A linearization table (R49). -/
structure Table where
  phase : TablePhase
  entries : Entries
  deriving DecidableEq, Repr

/-- The outcome of a calibration run (R62); `never` is NONE. -/
inductive CalOutcome where
  | never
  | running
  | done
  | failEmpty
  | failTimeout
  | cancelled
  deriving DecidableEq, Repr

/-- The Calibration Engine: its run state, run record and histogram (R62). -/
structure Calibration where
  active : Bool
  table : Fin 8
  channel : Fin 16
  k : Nat
  timeout : Nat
  emptyLimit : Nat
  hits : Nat
  elapsed : Nat
  outcome : CalOutcome
  emptyBins : Nat
  widestBin : Nat
  widestCode : Nat
  bins : Bank Nat 256
  deriving DecidableEq, Repr

/-! ## The Ordering Queue (chapter 6) -/

/-- The three flags that say how an edge was made (R43). -/
structure EdgeMarks where
  nominal : Bool
  gap : Bool
  unepoched : Bool
  deriving DecidableEq, Repr

/-- A qualified edge, as the Ordering Queue holds and releases it (R75). -/
structure Edge where
  channel : Fin 16
  sense : Sense
  stamp : Stamp
  marks : EdgeMarks
  deriving DecidableEq, Repr

/-- The Ordering Queue: its entries in queue order, and the release mark W (R75 to R77). -/
structure OrderingQueue where
  entries : List Edge
  mark : Stamp
  deriving DecidableEq, Repr

/-! ## Measurement Slots and plan (chapters 7 and 8) -/

/-- The kind of a slot (R89). -/
inductive SlotKind where
  | rate
  | interval
  | total
  deriving DecidableEq, Repr

/-- The sense of a slot's reference (R89). -/
inductive RefSense where
  | rise
  | fall
  | any
  deriving DecidableEq, Repr

/-- A reference to the edges of a channel: an endpoint or an arm edge (R89). -/
structure Endpoint where
  channel : Fin 16
  sense : RefSense
  deriving DecidableEq, Repr

/-- The arm source (R89). -/
inductive ArmSource where
  | immediate
  | atTime
  | armEdge (e : Endpoint)
  deriving DecidableEq, Repr

/-- HIGH or LOW: a gate's active level (R89), a pin's level (R146). -/
inductive PinLevel where
  | high
  | low
  deriving DecidableEq, Repr

/-- The gate mode (R89); `openEnded` is OPEN. -/
inductive GateMode where
  | timed
  | external (channel : Fin 16) (active : PinLevel)
  | plan (first : Fin 64)
  | openEnded
  deriving DecidableEq, Repr

/-- What an A edge does while one is pending (R105). -/
inductive Restart where
  | keepFirst
  | takeLatest
  deriving DecidableEq, Repr

/-- A slot's configuration record (R89). -/
structure SlotConfig where
  kind : SlotKind
  endpointA : Endpoint
  endpointB : Option Endpoint
  armSource : ArmSource
  gate : GateMode
  /-- G -/
  length : Nat
  /-- R -/
  repeats : Nat
  /-- M -/
  samples : Nat
  restart : Restart
  shared : Bool
  timeout : Nat
  report : Bool
  deriving DecidableEq, Repr

/-- The state of a slot, in the order of Table 7-2 (R91). -/
inductive SlotState where
  | idle
  | armed
  | opening
  | rateCounting
  | closing
  | seekA
  | seekB
  | totalCounting
  | held
  deriving DecidableEq, Repr

/-- The run flags, in the order of Table 7-3 (R110). -/
structure RunFlags where
  stopped : Bool
  noSignal : Bool
  closeLate : Bool
  short : Bool
  epochStep : Bool
  gap : Bool
  nominal : Bool
  unepoched : Bool
  reorder : Bool
  lateEdge : Bool
  saturated : Bool
  deriving DecidableEq, Repr

/-- What a plan step does with its time (R114). -/
inductive StepKind where
  | measure
  | wait
  deriving DecidableEq, Repr

/-- What follows a plan step (R99). -/
inductive StepAction where
  | next
  | jump (target : Fin 64)
  | last
  deriving DecidableEq, Repr

/-- A step of the Plan Table (R114); marker bit `b` is bit `b` of `markers`. -/
structure PlanStep where
  length : BitVec 32
  kind : StepKind
  markers : BitVec 4
  action : StepAction
  deriving DecidableEq, Repr

/-- The external-gate phase (R98). -/
inductive ExtPhase where
  | waitInactive
  | waitActive
  deriving DecidableEq, Repr

/-- The pending gate of a RATE slot in CLOSING (R102). `marks` are the marks of the gate edge that
opened it, which belong to its own result (R110). -/
structure PendingGate where
  tOpen : Stamp
  tClose : Option Stamp
  index : Nat
  marks : EdgeMarks
  deriving DecidableEq, Repr

/-- The pending A of an INTERVAL slot, with the marks its edge carried (R105, R110). -/
structure PendingA where
  stamp : Stamp
  marks : EdgeMarks
  deriving DecidableEq, Repr

/-- The run context of a slot (R91). -/
structure Run where
  /-- the arm time that W has not reached yet (R94, R95) -/
  armAt : Option Stamp
  /-- the slot waits for its arm edge (R96) -/
  armWait : Bool
  /-- the arm point has been taken, so that the gate edges are watched (R98) -/
  watching : Bool
  gateIndex : Nat
  tOpen : Option Stamp
  tClose : Option Stamp
  pendingGate : Option PendingGate
  /-- gates passed over since the gate in hand closed, whose indices are used up (R103) -/
  passed : Nat
  /-- no further gates follow, because of a STOP (R111) -/
  lastGate : Bool
  /-- P, as read at arm -/
  prescale : Nat
  t0 : Option Stamp
  lastA : Option Stamp
  /-- N -/
  n : Nat
  pendingA : Option PendingA
  count : Nat
  min : Option Nat
  max : Option Nat
  sum : Nat
  countA : Nat
  countB : Nat
  /-- the number of the current plan step (R99) -/
  planStep : Option (Fin 64)
  /-- the step in progress, as it was read when it started (R99) -/
  stepRecord : Option PlanStep
  /-- the end of the step in progress (R99) -/
  stepEnd : Option Stamp
  extPhase : Option ExtPhase
  flags : RunFlags
  deriving DecidableEq, Repr

/-- The values of a result record (R127, R128, R129). -/
inductive RecordBody where
  | rate (p n : Nat) (t0 t1 : Stamp) (f q : Nat)
  | interval (count min max sum mean : Nat) (ended : Stamp)
  | total (countA countB : Nat) (net : Int) (tOpen tClose : Stamp)
  deriving DecidableEq, Repr

/-- A result record (R126). Its kind is that of its body. -/
structure Record where
  slot : Fin 8
  gateIndex : Nat
  seq : BitVec 16
  values : Bool
  flags : RunFlags
  body : RecordBody
  deriving DecidableEq, Repr

/-- A Measurement Slot (R89, R91). -/
structure Slot where
  config : SlotConfig
  state : SlotState
  run : Run
  seq : BitVec 16
  retained : Option Record
  deriving DecidableEq, Repr

/-! ## The Result Queue (chapter 9) -/

/-- A record of the Result Queue (R136, R137, R139). -/
inductive QueueRecord where
  | result (r : Record)
  | stamp (channel : Fin 16) (sense : Sense) (marks : EdgeMarks) (stamp : BitVec 56)
  | gap (count : Nat) (limit : Bool)
  deriving DecidableEq, Repr

/-- The Result Queue (R137). Its occupancy is computed from its records. -/
structure ResultQueue where
  records : List QueueRecord
  sent : Nat
  gaps : Nat
  gapLimit : Bool
  threshold : Nat
  deriving DecidableEq, Repr

/-! ## Marker outputs (chapter 10) -/

/-- A marker's source (R146). -/
inductive MarkerSource where
  | off
  | level
  | gate (slot : Fin 8)
  | armed (slot : Fin 8)
  | done (slot : Fin 8)
  | step (slot : Fin 8) (bit : Fin 4)
  | divider (channel : Fin 16)
  | timebase (p : Nat)
  deriving DecidableEq, Repr

/-- A Marker Output (R146). `held` and `request` are true for ACTIVE. -/
structure Marker where
  source : MarkerSource
  invert : Bool
  width : Nat
  held : Bool
  request : Bool
  /-- the pin level, as STATUS reports it -/
  pin : PinLevel
  /-- what the pin itself shows: the pin level at the end of the last whole period (R147) -/
  shown : PinLevel
  lastTransition : Nat
  /-- the hold-until that a node reset's own transition to LOW waits for, with the width of before the
  reset; `none` where no such transition waits (R146, R147) -/
  resetHold : Option Nat
  pulseEnd : Option Nat
  deriving DecidableEq, Repr

/-! ## The Command Unit (chapter 12) -/

/-- The attention kinds, in their order (R169). -/
inductive AttnKind where
  | link
  | epoch
  | late
  | reorder
  | order
  | gap
  | high
  | table
  | cal
  | slot
  | load
  | replyLost
  deriving DecidableEq, Repr

/-- A packed field: its width in bits and its value (R161). -/
structure Field where
  width : Nat
  value : Nat
  deriving DecidableEq, Repr

/-- What the Command Unit holds for one attention kind (R169). -/
structure Attn where
  flag : Bool
  enable : Bool
  notice : Bool
  detail : List Field
  deriving DecidableEq, Repr

/-- The reply codes, in their order (R166). -/
inductive ReplyCode where
  | done
  | accepted
  | state
  | busy
  | range
  | sequence
  | conflict
  | shape
  | inUse
  | tooLate
  | wrongKind
  | unknown
  deriving DecidableEq, Repr

/-- A reply (R166): the command's tag, the code, and the result fields in their order. -/
structure Reply where
  tag : Byte
  code : ReplyCode
  fields : List Field
  deriving DecidableEq, Repr

/-- The state of the load buffer (R173). -/
inductive LoadPhase where
  | empty
  | opened
  | full
  deriving DecidableEq, Repr

/-- A staged load's target (R173). -/
inductive LoadTarget where
  | lin (t : Fin 8)
  | map
  | plan
  deriving DecidableEq, Repr

/-- The load buffer (R173). The words received are counted by the list's length. -/
structure LoadBuffer where
  phase : LoadPhase
  target : LoadTarget
  first : Nat
  count : Nat
  expected : Nat
  words : List Word16
  deriving DecidableEq, Repr

/-- The Command Unit's state (chapter 12). -/
structure CommandUnit where
  replies : List Reply
  /-- cells of the head reply already sent (R160, R166) -/
  repliesSent : Nat
  attns : Bank Attn 12
  /-- the pending-notice set, in the order its kinds joined (R170) -/
  notices : List AttnKind
  mute : Bool
  load : LoadBuffer
  deriving DecidableEq, Repr

/-! ## The whole state -/

/-- The state of the part. -/
structure State where
  /-- the commands and events that wait, first in, first out -/
  pending : List Instr
  /-- RESETn is low (R177) -/
  held : Bool
  link : Link
  node : Node
  timebase : Timebase
  map : Bank MapEntry 128
  channels : Bank Channel 16
  tables : Bank Table 8
  cal : Calibration
  queue : OrderingQueue
  slots : Bank Slot 8
  plan : Bank PlanStep 64
  results : ResultQueue
  /-- marker time (R146) -/
  markerTime : Nat
  markers : Bank Marker 4
  command : CommandUnit
  /-- the MODEL's own field: how many free choices of order have been made (`Config.pick`) -/
  choices : Nat
  deriving DecidableEq, Repr

/-- Faults: the spec names none. No event or command stops the part, so there is no constructor. -/
inductive Fault where
  deriving DecidableEq, Repr

/-- Refusals of the MODEL (a command that the part refuses is answered with a reply code, and is a
next state). -/
inductive Refusal where
  /-- raised by `exec` alone, for a row without a meaning; no row is without one (safe) -/
  | notModelled (mnemonic : String)
  deriving DecidableEq, Repr

/-! ## Reset values -/

/-- The power-on values of the link (R156, R157, R159). -/
def Link.reset : Link :=
  { align := .hunt, goodRun := 0, badRun := 0, errors := 0, slots := [], out := .fill }

/-- The power-on values of the node (R167). -/
def Node.reset : Node := { address := 0, state := .unnamed }

/-- The power-on values of the Timebase (R16). -/
def Timebase.reset : Timebase :=
  { count := 0, epoch := .unset, trim := 0, horizon := Config.resetHorizon, outcome := .never,
    offset := 0 }

/-- A Capture Map entry after either reset (R18). -/
def MapEntry.reset : MapEntry := { action := .pass, channel := 0 }

/-- A channel's settings after either reset: table is the channel number modulo 8 (R32). -/
def ChanSettings.reset (c : Fin 16) : ChanSettings :=
  { enable := false, sense := .rise, invert := false,
    table := ⟨c.val % 8, Nat.mod_lt _ (by decide)⟩, deskew := 0, holdoff := 0, prescale := 1,
    stream := false }

/-- A channel's status after either reset (R33). -/
def ChanStatus.reset : ChanStatus :=
  { level := .unknown, last := none, phase := 0, suppressed := 0, orderFaults := 0,
    sourceGap := false }

/-- A channel after either reset. -/
def Channel.reset (c : Fin 16) : Channel := { set := .reset c, status := .reset }

/-- The nominal mapping of fine code `c` (R38, R49). -/
def nominalFraction (c : Fin 256) : BitVec 12 := BitVec.ofNat 12 (c.val * 16 + 8)

/-- A table after either reset (R49). -/
def Table.reset : Table := { phase := .nominal, entries := .tabulate nominalFraction }

/-- The Calibration Engine after either reset (R62). -/
def Calibration.reset : Calibration :=
  { active := false, table := 0, channel := 0, k := 0, timeout := 0, emptyLimit := 0, hits := 0,
    elapsed := 0, outcome := .never, emptyBins := 0, widestBin := 0, widestCode := 0,
    bins := .fill 256 0 }

/-- A slot's configuration after either reset (R89). -/
def SlotConfig.reset : SlotConfig :=
  { kind := .rate, endpointA := { channel := 0, sense := .any }, endpointB := none,
    armSource := .immediate, gate := .timed, length := 250000, repeats := 1, samples := 1,
    restart := .keepFirst, shared := false, timeout := 2 ^ 25, report := true }

/-- No run flag recorded. -/
def RunFlags.clear : RunFlags :=
  { stopped := false, noSignal := false, closeLate := false, short := false, epochStep := false,
    gap := false, nominal := false, unepoched := false, reorder := false, lateEdge := false,
    saturated := false }

/-- The empty run context: every field empty, absent or 0 (R91). -/
def Run.empty : Run :=
  { armAt := none, armWait := false, watching := false, gateIndex := 0, tOpen := none,
    tClose := none, pendingGate := none, passed := 0, lastGate := false, prescale := 0, t0 := none,
    lastA := none, n := 0, pendingA := none, count := 0, min := none, max := none, sum := 0,
    countA := 0, countB := 0, planStep := none, stepRecord := none, stepEnd := none,
    extPhase := none, flags := .clear }

/-- A slot after either reset (R113). -/
def Slot.reset : Slot :=
  { config := .reset, state := .idle, run := .empty, seq := 0, retained := none }

/-- A plan step after either reset (R114). -/
def PlanStep.reset : PlanStep :=
  { length := 250000, kind := .measure, markers := 0, action := .last }

/-- The Result Queue after either reset (R137, R144). -/
def ResultQueue.reset : ResultQueue :=
  { records := [], sent := 0, gaps := 0, gapLimit := false, threshold := Config.resetThreshold }

/-- A marker at power-on (R146). -/
def Marker.reset : Marker :=
  { source := .off, invert := false, width := 0, held := false, request := false, pin := .low,
    shown := .low, lastTransition := 0, resetHold := none, pulseEnd := none }

/-- An attention kind after either reset (R169). -/
def Attn.reset : Attn := { flag := false, enable := true, notice := false, detail := [] }

/-- The EMPTY load buffer (R173). -/
def LoadBuffer.reset : LoadBuffer :=
  { phase := .empty, target := .lin 0, first := 0, count := 0, expected := 0, words := [] }

/-- The Command Unit after either reset (R166, R169, R170, R173). -/
def CommandUnit.reset : CommandUnit :=
  { replies := [], repliesSent := 0, attns := .fill 12 .reset, notices := [], mute := false,
    load := .reset }

/-- W at power-on: the frontier of count 0 and horizon 8192 (R77). -/
def OrderingQueue.reset : OrderingQueue :=
  { entries := [], mark := BitVec.ofNat 59 ((2 ^ 47 - 8192) * 4096) }

/-- The machine right after reset: every block at its power-on values (R177) and RESETn released. -/
def State.reset : State :=
  { pending := []
    held := false
    link := .reset
    node := .reset
    timebase := .reset
    map := .fill 128 .reset
    channels := .tabulate Channel.reset
    tables := .fill 8 .reset
    cal := .reset
    queue := .reset
    slots := .fill 8 .reset
    plan := .fill 64 .reset
    results := .reset
    markerTime := 0
    markers := .fill 4 .reset
    command := .reset
    choices := 0 }

end Sys2Proof.Machine
end

