-- ==== Sys2Proof/Machine/Line.lean ====
section
/-!
DEFINITION. The line code of the ring link (R155): code groups, the check byte, and the two forms of a
cell.
-/

namespace Sys2Proof.Machine

/-- CELL-START (R155). -/
def cellStart : Group := 0b11000

/-- FILL-MARK (R155). -/
def fillMark : Group := 0b11111

/-- The code groups of the nibbles 0x0 to 0xF (R155). -/
def dataGroups : List Group :=
  [0b01001, 0b01010, 0b01011, 0b01101, 0b01110, 0b10001, 0b10010, 0b10011,
   0b10100, 0b10101, 0b10110, 0b10111, 0b11001, 0b11010, 0b11011, 0b11101]

/-- The data group of a nibble. -/
def groupOf (n : BitVec 4) : Group := dataGroups.getD n.toNat 0

/-- The nibble of a group in a list of data groups that starts with that of nibble `i`. -/
def nibbleFrom (g : Group) : Nat → List Group → Option (BitVec 4)
  | _, [] => none
  | i, d :: ds => if g = d then some (BitVec.ofNat 4 i) else nibbleFrom g (i + 1) ds

/-- The nibble that a group carries, where it is a data group. -/
def nibbleOf (g : Group) : Option (BitVec 4) := nibbleFrom g 0 dataGroups

/-- One bit of the check register's step: shift left, and the generator x^8 + x^2 + x + 1 where a one
leaves the register (R155). -/
def crcShift (r : Byte) : Byte := if r.getLsbD 7 then (r <<< 1) ^^^ 0x07 else r <<< 1

/-- A byte enters the check register, most significant bit first (R155). -/
def crcByte (r b : Byte) : Byte :=
  crcShift (crcShift (crcShift (crcShift (crcShift (crcShift (crcShift (crcShift (r ^^^ b))))))))

/-- The check byte of some bytes: the register starts at 0xFF and is not inverted (R155). -/
def crc (bs : List Byte) : Byte := bs.foldl crcByte 0xFF

/-- The header and payload bytes of a cell, in the order they are sent (R155). -/
def cellBytes (c : Cell) : List Byte :=
  [c.header, c.payload.extractLsb' 56 8, c.payload.extractLsb' 48 8, c.payload.extractLsb' 40 8,
   c.payload.extractLsb' 32 8, c.payload.extractLsb' 24 8, c.payload.extractLsb' 16 8,
   c.payload.extractLsb' 8 8, c.payload.extractLsb' 0 8]

/-- The check byte of a cell (R155). -/
def cellCheck (c : Cell) : Byte := crc (cellBytes c)

/-- A byte as two groups, the high nibble first (R155). -/
def byteGroups (b : Byte) : List Group := [groupOf (b.extractLsb' 4 4), groupOf (b.extractLsb' 0 4)]

/-- The 20 groups of a cell in data form (R155). -/
def cellGroups (c : Cell) : List Group := (cellBytes c ++ [cellCheck c]).flatMap byteGroups

/-- The 20 groups of a FILL cell (R155). -/
def fillGroups : List Group := List.replicate 20 fillMark

/-- The 21 groups that a transmitted cell puts on the wire (R155). -/
def TxCell.groups : TxCell → List Group
  | .fill => cellStart :: fillGroups
  | .data c => cellStart :: cellGroups c

/-! ## Line symbols (R155) -/

/-- The five symbols of a group, its first symbol first (R155). -/
def groupSymbols (g : Group) : List Bool :=
  [g.getMsbD 0, g.getMsbD 1, g.getMsbD 2, g.getMsbD 3, g.getMsbD 4]

/-- The line symbols of some groups (R155). -/
def lineSymbols (gs : List Group) : List Bool := gs.flatMap groupSymbols

/-- Five symbols as a group (R155). -/
def symbolGroup (a b c d e : Bool) : Group :=
  BitVec.ofBool a ++ BitVec.ofBool b ++ BitVec.ofBool c ++ BitVec.ofBool d ++ BitVec.ofBool e

/-- The first `n` groups of a stream of line symbols, and the symbols behind them; `none` while the
stream holds too few symbols. -/
def takeGroups : Nat → List Bool → Option (List Group × List Bool)
  | 0, line => some ([], line)
  | n + 1, a :: b :: c :: d :: e :: line =>
    match takeGroups n line with
    | some (gs, others) => some (symbolGroup a b c d e :: gs, others)
    | none => none
  | _ + 1, _ => none

/-- What 20 groups that follow a CELL-START turn out to be (R155). -/
inductive Verdict20 where
  | fill
  | good (c : Cell)
  | bad
  deriving DecidableEq, Repr

/-- Groups as bytes, two data groups a byte; `none` where one is no data group or one is left over. -/
def bytesOf : List Group → Option (List Byte)
  | [] => some []
  | [_] => none
  | h :: l :: gs =>
    match nibbleOf h, nibbleOf l, bytesOf gs with
    | some h, some l, some bs => some ((h ++ l) :: bs)
    | _, _, _ => none

/-- The judgement of the 20 groups of a cell: the marked form, the data form with the right check byte,
or bad (R155). -/
def judgeGroups (gs : List Group) : Verdict20 :=
  if gs = fillGroups then .fill
  else
    match bytesOf gs with
    | some [h, p0, p1, p2, p3, p4, p5, p6, p7, check] =>
      let c : Cell := ⟨h, p0 ++ p1 ++ p2 ++ p3 ++ p4 ++ p5 ++ p6 ++ p7⟩
      if check = cellCheck c then .good c else .bad
    | _ => .bad

end Sys2Proof.Machine
end

