-- ==== Sys2Proof/Machine/Cells.lean ====
section
/-!
DEFINITION. The fields of a data-form cell (R162): header, command code, and the packed arguments of a
command (R161).
-/

namespace Sys2Proof.Machine

/-- The kind field of a cell: the high four bits of its header (Table 11-1). -/
def cellKind (c : Cell) : Nat := (c.header.extractLsb' 4 4).toNat

/-- The node field of a cell: the low four bits of its header (Table 11-1). -/
def cellNode (c : Cell) : Nat := (c.header.extractLsb' 0 4).toNat

/-- The tag of a command: payload byte 0 (Table 11-2). -/
def cellTag (c : Cell) : Byte := c.payload.extractLsb' 56 8

/-- The command code: payload byte 1, bits 5 to 0 (Table 11-2). -/
def commandCode (c : Cell) : Nat := (c.payload.extractLsb' 48 6).toNat

/-- Payload byte 1, bits 7 and 6: the word count of LOAD-DATA, the high bits of ARM-AT's slot. -/
def commandHighBits (c : Cell) : Nat := (c.payload.extractLsb' 54 2).toNat

/-- The argument field that starts `off` bits after the most significant bit of the 48 argument bits
and is `w` bits wide (R161). -/
def argument (c : Cell) (off w : Nat) : Nat := (c.payload.extractLsb' (48 - off - w) w).toNat

end Sys2Proof.Machine
end

