-- ==== Sys2Proof/WellFormed.lean ====
section
/-!
DEFINITION. Which rows the wire can carry: the cell is of the row's kind and command, and every operand
fits the bits that R161 and R162 give it. (An operand that fits its bits may still be out of the range
its rule states; that is judged by the command's meaning.)
-/

namespace Sys2Proof

open Machine

/-- The cell is the COMMAND with this code (R162). -/
def isCommand (code : Nat) (c : Cell) : Bool := cellKind c == 3 && commandCode c == code

/-- `v` fits `w` bits. -/
def fits (w v : Nat) : Bool := decide (v < 2 ^ w)

/-- An enumeration's code that is not one of its `n` values and fits `w` bits. -/
def spare (n w code : Nat) : Bool := decide (n ≤ code) && fits w code

def ChanArg.wellFormed : ChanArg → Bool
  | .enable v => fits 1 v
  | .sense v => fits 2 v
  | .invert v => fits 1 v
  | .table v => fits 3 v
  | .deskew v => decide (-(2 ^ 20) ≤ v) && decide (v < 2 ^ 20)
  | .holdoff v => fits 16 v
  | .prescale v => fits 17 v
  | .stream v => fits 1 v
  | .other code => spare 8 3 code

def ChanItem.wellFormed : ChanItem → Bool
  | .setup | .scale | .state | .counts | .last | .lastFine => true
  | .other code => spare 6 3 code

def StatusItem.wellFormed : StatusItem → Bool
  | .flags | .node | .queue | .load | .tables => true
  | .other code => spare 5 3 code

def LoadArg.wellFormed : LoadArg → Bool
  | .lin t => fits 3 t
  | .map | .plan => true
  | .other code => spare 10 4 code

def ReadArg.wellFormed : ReadArg → Bool
  | .lin t => fits 3 t
  | .histogram => true
  | .other code => spare 9 4 code

def ArmArg.wellFormed : ArmArg → Bool
  | .immediate | .atTime => true
  | .armEdge channel sense => fits 4 channel && fits 2 sense
  | .other code => spare 3 2 code

def GateArg.wellFormed : GateArg → Bool
  | .timed | .openEnded => true
  | .external channel active => fits 4 channel && fits 1 active
  | .plan first => fits 6 first
  | .other code => spare 4 2 code

def SlotArg.wellFormed : SlotArg → Bool
  | .kind v => fits 2 v
  | .endpointA channel sense => fits 4 channel && fits 2 sense
  | .endpointB _ channel sense => fits 4 channel && fits 2 sense
  | .armSource a => a.wellFormed
  | .gateMode g => g.wellFormed
  | .gateLength v => fits 41 v
  | .repeats v => fits 16 v
  | .samples v => fits 16 v
  | .restart v => fits 1 v
  | .sharedEdge v => fits 1 v
  | .closeTimeout v => fits 32 v
  | .report v => fits 1 v
  | .other code => spare 12 4 code

def SlotItem.wellFormed : SlotItem → Bool
  | .setup | .gating | .counts | .state => true
  | .result segment => fits 3 segment
  | .other code => spare 5 3 code

/-- A source of MARK-SET; `other 3` stands for the spare field code 3 of the command. -/
def SourceArg.wellFormed : SourceArg → Bool
  | .off | .level => true
  | .gate slot => fits 3 slot
  | .armed slot => fits 3 slot
  | .done slot => fits 3 slot
  | .step slot bit => fits 3 slot && fits 2 bit
  | .divider channel => fits 4 channel
  | .timebase p => fits 33 p
  | .other code => code == 3

/-- The row is one that the wire can carry. -/
def Instr.wellFormed : Instr → Bool
  | .powerOnReset => true
  | .resetRelease => true
  | .timebaseAdvance => true
  | .huntCellStart groups => groups.length == 20
  | .confirmingFillCell => true
  | .confirmingOtherCell => true
  | .linkSilentCellTime => true
  | .fillCell => true
  | .badCell => true
  | .relayCell c => !(cellKind c == 1) && !(cellKind c == 2) && !(cellKind c == 3)
  | .edgeCell c _ _ _ _ _ _ => cellKind c == 1
  | .armPointReached _ => true
  | .gateCloseReached _ => true
  | .closeTimeoutExpiry _ => true
  | .planStepEnd _ => true
  | .epochCell c _ => cellKind c == 2
  | .transmitSlotDue => true
  | .tableUpdateEnd _ => true
  | .calCompletion => true
  | .calTimeout => true
  | .markerHoldExpiry _ => true
  | .donePulseEnd _ => true
  | .name c address => isCommand 0 c && fits 4 address
  | .mode c state => isCommand 1 c && fits 2 state
  | .ident c item => isCommand 2 c && fits 2 item
  | .nodeReset c => isCommand 3 c
  | .status c item => isCommand 4 c && item.wellFormed
  | .clear c _ _ => isCommand 5 c
  | .attnSet c _ _ _ => isCommand 6 c
  | .timeSetHorizon c n => isCommand 7 c && fits 16 n
  | .timeSetTrim c n => isCommand 7 c && fits 10 n
  | .timeSetReport c => isCommand 7 c
  | .timeSetCount c => isCommand 7 c
  | .chanWrite c channel arg => isCommand 8 c && fits 4 channel && arg.wellFormed
  | .chanRead c channel item => isCommand 9 c && fits 4 channel && item.wellFormed
  | .loadOpen c target first count =>
    isCommand 10 c && target.wellFormed && fits 8 first && fits 7 count
  | .loadData c words => isCommand 11 c && decide (words.length ≤ 3)
  | .loadCommit c => isCommand 12 c
  | .loadCancel c => isCommand 13 c
  | .tableRead c target index => isCommand 14 c && target.wellFormed && fits 9 index
  | .calRun c table channel k timeout emptyLimit =>
    isCommand 15 c && fits 3 table && fits 4 channel && fits 5 k && fits 16 timeout &&
      fits 8 emptyLimit
  | .calCancel c => isCommand 16 c
  | .slotSet c slot arg => isCommand 17 c && fits 3 slot && arg.wellFormed
  | .slotGet c slot item => isCommand 18 c && fits 3 slot && item.wellFormed
  | .arm c slot => isCommand 19 c && fits 3 slot
  | .armAt c slot time => isCommand 20 c && fits 3 slot && fits 47 time
  | .stop c slot => isCommand 21 c && fits 3 slot
  | .hold c slot => isCommand 22 c && fits 3 slot
  | .resume c slot => isCommand 23 c && fits 3 slot
  | .markSetSource c marker source => isCommand 24 c && fits 2 marker && source.wellFormed
  | .markSetInvert c marker value => isCommand 24 c && fits 2 marker && fits 1 value
  | .markSetWidth c marker width => isCommand 24 c && fits 2 marker && fits 16 width
  | .markLevel c marker level => isCommand 25 c && fits 2 marker && fits 1 level
  | .queueSet c threshold => isCommand 26 c && fits 10 threshold
  | .unknownCommand c code => isCommand code c && decide (27 ≤ code)

end Sys2Proof
end

