-- ==== Sys2Proof/Decode.lean ====
section
/-!
DEFINITION. From cells on the wire to rows of the operation table (R155, R156, R161, R162). The table
itself gives its rows no bits, so no row is spelled by a table word.
-/

namespace Sys2Proof

open Machine

/-! ## The operands of the commands (R161)

`argument c off w` is the field of `w` bits that starts `off` bits into the argument bytes. -/

/-- The field and value of CHAN-WRITE, after the channel. -/
def decodeChanArg (c : Cell) : ChanArg :=
  match argument c 4 3 with
  | 0 => .enable (argument c 7 1)
  | 1 => .sense (argument c 7 2)
  | 2 => .invert (argument c 7 1)
  | 3 => .table (argument c 7 3)
  | 4 => .deskew (BitVec.ofNat 21 (argument c 7 21)).toInt
  | 5 => .holdoff (argument c 7 16)
  | 6 => .prescale (argument c 7 17)
  | _ => .stream (argument c 7 1)

/-- The item of CHAN-READ, after the channel. -/
def decodeChanItem (c : Cell) : ChanItem :=
  match argument c 4 3 with
  | 0 => .setup
  | 1 => .scale
  | 2 => .state
  | 3 => .counts
  | 4 => .last
  | 5 => .lastFine
  | n => .other n

/-- The item of STATUS. -/
def decodeStatusItem (c : Cell) : StatusItem :=
  match argument c 0 3 with
  | 0 => .flags
  | 1 => .node
  | 2 => .queue
  | 3 => .load
  | 4 => .tables
  | n => .other n

/-- The target of LOAD-OPEN: LIN 0 to LIN 7, MAP, PLAN. -/
def decodeLoadArg (c : Cell) : LoadArg :=
  let n := argument c 0 4
  if n < 8 then .lin n else if n = 8 then .map else if n = 9 then .plan else .other n

/-- The target of TABLE-READ: LIN 0 to LIN 7, HISTOGRAM. -/
def decodeReadArg (c : Cell) : ReadArg :=
  let n := argument c 0 4
  if n < 8 then .lin n else if n = 8 then .histogram else .other n

/-- The words of LOAD-DATA, as many as its word count says (R162). -/
def decodeWords (c : Cell) : List Word16 :=
  [c.payload.extractLsb' 32 16, c.payload.extractLsb' 16 16, c.payload.extractLsb' 0 16].take
    (commandHighBits c)

/-- An arm source of SLOT-SET, after slot and field. -/
def decodeArmArg (c : Cell) : ArmArg :=
  match argument c 7 2 with
  | 0 => .immediate
  | 1 => .atTime
  | 2 => .armEdge (argument c 9 4) (argument c 13 2)
  | n => .other n

/-- A gate mode of SLOT-SET, after slot and field. -/
def decodeGateArg (c : Cell) : GateArg :=
  match argument c 7 2 with
  | 0 => .timed
  | 1 => .external (argument c 9 4) (argument c 13 1)
  | 2 => .plan (argument c 9 6)
  | _ => .openEnded

/-- The field and value of SLOT-SET, after the slot. -/
def decodeSlotArg (c : Cell) : SlotArg :=
  match argument c 3 4 with
  | 0 => .kind (argument c 7 2)
  | 1 => .endpointA (argument c 7 4) (argument c 11 2)
  | 2 => .endpointB (argument c 7 1 == 1) (argument c 8 4) (argument c 12 2)
  | 3 => .armSource (decodeArmArg c)
  | 4 => .gateMode (decodeGateArg c)
  | 5 => .gateLength (argument c 7 41)
  | 6 => .repeats (argument c 7 16)
  | 7 => .samples (argument c 7 16)
  | 8 => .restart (argument c 7 1)
  | 9 => .sharedEdge (argument c 7 1)
  | 10 => .closeTimeout (argument c 7 32)
  | 11 => .report (argument c 7 1)
  | n => .other n

/-- The item of SLOT-GET, after the slot. -/
def decodeSlotItem (c : Cell) : SlotItem :=
  match argument c 3 3 with
  | 0 => .setup
  | 1 => .gating
  | 2 => .counts
  | 3 => .state
  | 4 => .result (argument c 6 3)
  | n => .other n

/-- A source of MARK-SET SOURCE, after marker and field. -/
def decodeSourceArg (c : Cell) : SourceArg :=
  match argument c 4 3 with
  | 0 => .off
  | 1 => .level
  | 2 => .gate (argument c 7 3)
  | 3 => .armed (argument c 7 3)
  | 4 => .done (argument c 7 3)
  | 5 => .step (argument c 7 3) (argument c 10 2)
  | 6 => .divider (argument c 7 4)
  | _ => .timebase (argument c 7 33)

/-- MARK-SET by its field (R148); the spare field code is answered as a source that names none. -/
def decodeMarkSet (c : Cell) : Instr :=
  let marker := argument c 0 2
  match argument c 2 2 with
  | 0 => .markSetSource c marker (decodeSourceArg c)
  | 1 => .markSetInvert c marker (argument c 4 1)
  | 2 => .markSetWidth c marker (argument c 4 16)
  | _ => .markSetSource c marker (.other 3)

/-- TIME-SET by its item (R14). -/
def decodeTimeSet (c : Cell) : Instr :=
  match argument c 0 2 with
  | 0 => .timeSetHorizon c (argument c 2 16)
  | 1 => .timeSetTrim c (argument c 2 10)
  | 2 => .timeSetReport c
  | _ => .timeSetCount c

/-- A COMMAND cell by its command code (R165, Table 12-1). Of LOAD-OPEN, R161 does not say whether the
widths of the first index and the count follow the target: here they are the 8 and 7 bits of the widest
target for every target (DEDUCED, log entry 9). -/
def decodeCommand (c : Cell) : Instr :=
  match commandCode c with
  | 0 => .name c (argument c 0 4)
  | 1 => .mode c (argument c 0 2)
  | 2 => .ident c (argument c 0 2)
  | 3 => .nodeReset c
  | 4 => .status c (decodeStatusItem c)
  | 5 => .clear c (c.payload.extractLsb' 36 12) (argument c 12 1 == 1)
  | 6 => .attnSet c (c.payload.extractLsb' 36 12) (c.payload.extractLsb' 24 12) (argument c 24 1 == 1)
  | 7 => decodeTimeSet c
  | 8 => .chanWrite c (argument c 0 4) (decodeChanArg c)
  | 9 => .chanRead c (argument c 0 4) (decodeChanItem c)
  | 10 => .loadOpen c (decodeLoadArg c) (argument c 4 8) (argument c 12 7)
  | 11 => .loadData c (decodeWords c)
  | 12 => .loadCommit c
  | 13 => .loadCancel c
  | 14 => .tableRead c (decodeReadArg c) (argument c 4 9)
  | 15 => .calRun c (argument c 0 3) (argument c 3 4) (argument c 7 5) (argument c 12 16)
      (argument c 28 8)
  | 16 => .calCancel c
  | 17 => .slotSet c (argument c 0 3) (decodeSlotArg c)
  | 18 => .slotGet c (argument c 0 3) (decodeSlotItem c)
  | 19 => .arm c (argument c 0 3)
  | 20 => .armAt c (commandHighBits c * 2 + argument c 0 1) (argument c 1 47)
  | 21 => .stop c (argument c 0 3)
  | 22 => .hold c (argument c 0 3)
  | 23 => .resume c (argument c 0 3)
  | 24 => decodeMarkSet c
  | 25 => .markLevel c (argument c 0 2) (argument c 2 1)
  | 26 => .queueSet c (argument c 0 10)
  | code => .unknownCommand c code

/-- An EDGE cell (Table 11-2): slice, lane, sense, lost-before, coarse16, fine code. -/
def decodeEdge (c : Cell) : Instr :=
  .edgeCell c (c.payload.extractLsb' 59 5).toFin (c.payload.extractLsb' 57 2).toFin
    (if c.payload.getLsbD 56 then .fall else .rise) (c.payload.extractLsb' 32 16)
    (c.payload.extractLsb' 24 8).toFin (c.payload.getLsbD 55)

/-- An EPOCH cell (Table 11-2): the low 47 bits of payload bytes 0 to 5. -/
def decodeEpoch (c : Cell) : Instr := .epochCell c (c.payload.extractLsb' 16 47)

/-- The row of a good data-form cell received in LOCKED, by its kind (R158, R162). -/
def decodeCell (c : Cell) : Instr :=
  match cellKind c with
  | 1 => decodeEdge c
  | 2 => decodeEpoch c
  | 3 => decodeCommand c
  | _ => .relayCell c

/-- The row of the 20 groups that follow a CELL-START at the receiver's alignment (R155, R156). -/
def decodeGroups (align : Machine.Alignment) (groups : List Group) : Instr :=
  match align with
  | .hunt => .huntCellStart groups
  | .confirming => if judgeGroups groups = .fill then .confirmingFillCell else .confirmingOtherCell
  | .locked =>
    match judgeGroups groups with
    | .fill => .fillCell
    | .bad => .badCell
    | .good c => decodeCell c

/-! ## From line symbols to rows (R156)

`line` holds the symbols received and not yet used, from the fixed alignment on in CONFIRMING and
LOCKED. The answer is the row of the next event and the symbols behind it. -/

/-- HUNT: a CELL-START group is looked for at every symbol position (R156). Where the 20 groups behind it
form a good FILL cell the alignment is fixed there, and the next cell begins behind them; otherwise the
search goes on from the symbol after that CELL-START. -/
def huntLine : List Bool → Option (Instr × List Bool)
  | [] => none
  | b :: line =>
    match takeGroups 21 (b :: line) with
    | some (start :: groups, others) =>
      if start = cellStart then
        some (.huntCellStart groups, if judgeGroups groups = .fill then others else line.drop 4)
      else huntLine line
    | _ => none

/-- CONFIRMING and LOCKED: the next 21 groups at the fixed alignment, judged bad where the first of them
is not CELL-START (R155, R156). What follows is sought, or cut, in the symbols behind those 21 groups; that
this holds of the search after the fourth bad cell in LOCKED is the model's (DESIGN CHOICE, log entry 35). -/
def alignedLine (align : Machine.Alignment) (line : List Bool) : Option (Instr × List Bool) :=
  match takeGroups 21 line with
  | some (start :: groups, others) =>
    some
      (if start = cellStart then decodeGroups align groups
       else if align = .locked then .badCell
       else .confirmingOtherCell, others)
  | _ => none

/-- The row of the next event on the receive link, and the symbols behind it; `none` while the line
holds too few symbols (R156). -/
def nextRow (align : Machine.Alignment) (line : List Bool) : Option (Instr × List Bool) :=
  match align with
  | .hunt => huntLine line
  | .confirming => alignedLine .confirming line
  | .locked => alignedLine .locked line

/-- The row that a word spells by the table's bits: spec/opcode_table.json gives no row any bits, so no
word spells one. -/
def decodeTableWord (nbits w : Nat) : Option Instr :=
  match nbits, w with
  | _, _ => none

end Sys2Proof
end

