-- ==== Sys2Proof/Machine/Time.lean ====
section
/-!
DEFINITION. Stamps, coarse counts and their modular comparison (R2 to R5), and the two divisions of
the part (R117).
-/

namespace Sys2Proof.Machine

/-- The stamp of a coarse count, fraction 0 (R2). -/
def stampOf (c : Coarse) : Stamp := c ++ (0 : BitVec 12)

/-- The coarse part of a stamp: its upper 47 bits (R2). -/
def coarsePart (s : Stamp) : Coarse := s.extractLsb' 12 47

/-- The fraction of a stamp: its lower 12 bits (R2). -/
def fraction (s : Stamp) : BitVec 12 := s.extractLsb' 0 12

/-- The signed difference of stamp `x` from stamp `y` (R3). -/
def stampDiff (x y : Stamp) : Int := (x - y).toInt

/-- `x` is later than `y` (R3). -/
def later (x y : Stamp) : Bool := decide (0 < stampDiff x y)

/-- `x` is not later than `y`, written ≤ in the spec (R3). -/
def notLater (x y : Stamp) : Bool := !later x y

/-- `x` is earlier than `y` (R3). -/
def earlier (x y : Stamp) : Bool := decide (stampDiff x y < 0)

/-- The earlier of two stamps, the first where they are equal (R3). -/
def earlierOf (x y : Stamp) : Stamp := if earlier y x then y else x

/-- The signed difference of coarse count `x` from `y` (R4). -/
def coarseDiff (x y : Coarse) : Int := (x - y).toInt

/-- A stamp rounded up to a whole coarse period (R5). -/
def roundUp (s : Stamp) : Stamp :=
  if fraction s = 0 then s else stampOf (coarsePart s + 1)

/-- A stamp moved later by `d` coarse periods (R2). -/
def addPeriods (s : Stamp) (d : Nat) : Stamp := s + BitVec.ofNat 59 (d * Config.fuPerCoarse)

/-- The stamp of a time given in coarse periods (R2). -/
def stampOfPeriods (c : Nat) : Stamp := BitVec.ofNat 59 (c * Config.fuPerCoarse)

/-- A quotient rounded half up (R117). -/
def roundedHalfUp (n d : Nat) : Nat := (2 * n + d) / (2 * d)

/-- A count increased by one that stays at `limit` (Table I-3). -/
def countUp (limit n : Nat) : Nat := if n < limit then n + 1 else limit

/-- The frontier: the stamp that trails the count by the horizon (R13). -/
def Timebase.frontier (t : Timebase) : Stamp := stampOf (t.count - BitVec.ofNat 47 t.horizon)

end Sys2Proof.Machine
end

