-- ==== Sys2Proof/Machine/Operands.lean ====
section
/-!
DEFINITION. The packing of fields (R161), the codes of the enumerations, and the reading of a
command's operands into the values the state holds.
-/

namespace Sys2Proof.Machine

/-! ## Packing (R161) -/

/-- A number as a field. -/
def num (width value : Nat) : Field := ⟨width, value⟩

/-- A flag as a field: clear and off 0, set and on 1. -/
def bit (b : Bool) : Field := ⟨1, b.toNat⟩

/-- A signed number as a field, in two's complement. -/
def signed (width : Nat) (v : Int) : Field := ⟨width, (BitVec.ofInt width v).toNat⟩

/-- The bits that the fields take together. -/
def packedWidth : List Field → Nat
  | [] => 0
  | f :: fs => f.width + packedWidth fs

/-- The fields laid one after another, the first the most significant; each field keeps the bits of
its width. -/
def packedValue : List Field → Nat
  | [] => 0
  | f :: fs => (f.value % 2 ^ f.width) * 2 ^ packedWidth fs + packedValue fs

/-- The fields laid from the most significant bit of `room` bits, the bits past the last field 0. -/
def packInto (room : Nat) (fs : List Field) : Nat :=
  packedValue fs * 2 ^ (room - packedWidth fs) % 2 ^ room

/-- An optional field: a presence bit, and the bits 0 when it is absent. -/
def optional (width : Nat) : Option Nat → List Field
  | none => [bit false, num width 0]
  | some v => [bit true, num width v]

/-! ## Codes of the enumerations (R161) -/

def senseCode : Sense → Nat
  | .rise => 0
  | .fall => 1

def PinLevel.code : PinLevel → Nat
  | .high => 0
  | .low => 1

def Level.code : Level → Nat
  | .high => 0
  | .low => 1
  | .unknown => 2

def ChanSense.code : ChanSense → Nat
  | .rise => 0
  | .fall => 1
  | .both => 2

def RefSense.code : RefSense → Nat
  | .rise => 0
  | .fall => 1
  | .any => 2

def Alignment.code : Alignment → Nat
  | .hunt => 0
  | .confirming => 1
  | .locked => 2

def NodeState.code : NodeState → Nat
  | .unnamed => 0
  | .active => 1
  | .bypass => 2

def EpochState.code : EpochState → Nat
  | .unset => 0
  | .set => 1

def EpochOutcome.code : EpochOutcome → Nat
  | .never => 0
  | .loaded => 1
  | .confirm => 2
  | .step => 3

/-- A table's state by its place in Table 4-1. -/
def TablePhase.code : TablePhase → Nat
  | .nominal => 0
  | .updating _ _ => 1
  | .loaded => 2

def CalOutcome.code : CalOutcome → Nat
  | .never => 0
  | .running => 1
  | .done => 2
  | .failEmpty => 3
  | .failTimeout => 4
  | .cancelled => 5

def SlotKind.code : SlotKind → Nat
  | .rate => 0
  | .interval => 1
  | .total => 2

def Restart.code : Restart → Nat
  | .keepFirst => 0
  | .takeLatest => 1

/-- A slot state by its row in Table 7-2. -/
def SlotState.code : SlotState → Nat
  | .idle => 0
  | .armed => 1
  | .opening => 2
  | .rateCounting => 3
  | .closing => 4
  | .seekA => 5
  | .seekB => 6
  | .totalCounting => 7
  | .held => 8

def LoadPhase.code : LoadPhase → Nat
  | .empty => 0
  | .opened => 1
  | .full => 2

/-- A load target: LIN 0 to LIN 7, MAP, PLAN (R161). -/
def LoadTarget.code : LoadTarget → Nat
  | .lin t => t.val
  | .map => 8
  | .plan => 9

/-- An attention kind by its place in the list of R169. -/
def AttnKind.code : AttnKind → Fin 12
  | .link => 0
  | .epoch => 1
  | .late => 2
  | .reorder => 3
  | .order => 4
  | .gap => 5
  | .high => 6
  | .table => 7
  | .cal => 8
  | .slot => 9
  | .load => 10
  | .replyLost => 11

/-- A reply code by its place in the list of R166. -/
def ReplyCode.code : ReplyCode → Nat
  | .done => 0
  | .accepted => 1
  | .state => 2
  | .busy => 3
  | .range => 4
  | .sequence => 5
  | .conflict => 6
  | .shape => 7
  | .inUse => 8
  | .tooLate => 9
  | .wrongKind => 10
  | .unknown => 11

/-! ## Compound values as fields (R161) -/

def Endpoint.fields (e : Endpoint) : List Field := [num 4 e.channel, num 2 e.sense.code]

/-- Endpoint B, an optional field. -/
def optionalEndpoint : Option Endpoint → List Field
  | none => [bit false, num 6 0]
  | some e => bit true :: e.fields

def ArmSource.fields : ArmSource → List Field
  | .immediate => [num 2 0]
  | .atTime => [num 2 1]
  | .armEdge e => num 2 2 :: e.fields

def GateMode.fields : GateMode → List Field
  | .timed => [num 2 0]
  | .external c l => [num 2 1, num 4 c, num 1 l.code]
  | .plan f => [num 2 2, num 6 f]
  | .openEnded => [num 2 3]

def MarkerSource.fields : MarkerSource → List Field
  | .off => [num 3 0]
  | .level => [num 3 1]
  | .gate i => [num 3 2, num 3 i]
  | .armed i => [num 3 3, num 3 i]
  | .done i => [num 3 4, num 3 i]
  | .step i b => [num 3 5, num 3 i, num 2 b]
  | .divider c => [num 3 6, num 4 c]
  | .timebase p => [num 3 7, num 33 p]

/-- The eleven run flags, STOPPED first (Table 7-3). -/
def RunFlags.fields (f : RunFlags) : List Field :=
  [bit f.stopped, bit f.noSignal, bit f.closeLate, bit f.short, bit f.epochStep, bit f.gap,
   bit f.nominal, bit f.unepoched, bit f.reorder, bit f.lateEdge, bit f.saturated]

/-! ## Reading operands -/

/-- A number as a member of `Fin n`, where it lies in 0..n − 1. -/
def inRange (n v : Nat) : Option (Fin n) := if h : v < n then some ⟨v, h⟩ else none

/-- Whether `v` lies in lo..hi. -/
def between (lo hi v : Nat) : Bool := decide (lo ≤ v) && decide (v ≤ hi)

/-- A flag by its code: off or clear 0, on or set 1. -/
def flagOf : Nat → Option Bool
  | 0 => some false
  | 1 => some true
  | _ => none

def chanSenseOf : Nat → Option ChanSense
  | 0 => some .rise
  | 1 => some .fall
  | 2 => some .both
  | _ => none

def refSenseOf : Nat → Option RefSense
  | 0 => some .rise
  | 1 => some .fall
  | 2 => some .any
  | _ => none

def kindOf : Nat → Option SlotKind
  | 0 => some .rate
  | 1 => some .interval
  | 2 => some .total
  | _ => none

def restartOf : Nat → Option Restart
  | 0 => some .keepFirst
  | 1 => some .takeLatest
  | _ => none

def pinLevelOf : Nat → Option PinLevel
  | 0 => some .high
  | 1 => some .low
  | _ => none

/-- A reference to a channel's edges, in range (R89). -/
def endpointOf (channel sense : Nat) : Option Endpoint :=
  match inRange 16 channel, refSenseOf sense with
  | some c, some s => some ⟨c, s⟩
  | _, _ => none

def armSourceOf : ArmArg → Option ArmSource
  | .immediate => some .immediate
  | .atTime => some .atTime
  | .armEdge c s => (endpointOf c s).map .armEdge
  | .other _ => none

def gateModeOf : GateArg → Option GateMode
  | .timed => some .timed
  | .external c l =>
    match inRange 16 c, pinLevelOf l with
    | some c, some l => some (.external c l)
    | _, _ => none
  | .plan f => (inRange 64 f).map .plan
  | .openEnded => some .openEnded
  | .other _ => none

/-- A marker source whose parameters lie in their ranges (R148). -/
def sourceOf : SourceArg → Option MarkerSource
  | .off => some .off
  | .level => some .level
  | .gate i => (inRange 8 i).map .gate
  | .armed i => (inRange 8 i).map .armed
  | .done i => (inRange 8 i).map .done
  | .step i b =>
    match inRange 8 i, inRange 4 b with
    | some i, some b => some (.step i b)
    | _, _ => none
  | .divider c => (inRange 16 c).map .divider
  | .timebase p => if between 2 (2 ^ 32) p then some (.timebase p) else none
  | .other _ => none

def loadTargetOf : LoadArg → Option LoadTarget
  | .lin t => (inRange 8 t).map .lin
  | .map => some .map
  | .plan => some .plan
  | .other _ => none

/-! ## Staged words (R162) -/

/-- A MAP word: action in bits 5..4, channel in bits 3..0; action 3 is PASS with channel 0 (R23). -/
def mapEntryOf (w : Word16) : MapEntry :=
  let channel : Fin 16 := (w.extractLsb' 0 4).toFin
  match (w.extractLsb' 4 2).toNat with
  | 0 => ⟨.pass, channel⟩
  | 1 => ⟨.take, channel⟩
  | 2 => ⟨.copy, channel⟩
  | _ => ⟨.pass, 0⟩

/-- A PLAN entry of three words, as the step numbered `i` (R162); `none` where R115 refuses it RANGE:
a length of 0, an unknown action, or step 63 with action NEXT. A JUMP target of six bits and a kind
of one bit are always in range. -/
def planStepOf (i : Nat) (w0 w1 w2 : Word16) : Option PlanStep :=
  let bits : BitVec 48 := w0 ++ w1 ++ w2
  let length := bits.extractLsb' 16 32
  let kind : StepKind := if bits.getLsbD 15 then .wait else .measure
  let markers := bits.extractLsb' 11 4
  let target : Fin 64 := (bits.extractLsb' 3 6).toFin
  if length = 0 then none
  else
    match (bits.extractLsb' 9 2).toNat with
    | 0 => if i = 63 then none else some ⟨length, kind, markers, .next⟩
    | 1 => some ⟨length, kind, markers, .jump target⟩
    | 2 => some ⟨length, kind, markers, .last⟩
    | _ => none

end Sys2Proof.Machine
end

