-- ==== Sys2Proof/Machine/Flags.lean ====
section
/-!
DEFINITION. Flags: the marks of an edge, the run flags and the kind-and-flags word of a result, and
what a raise does to an attention kind.
-/

namespace Sys2Proof.Machine

/-- No mark. -/
def EdgeMarks.clear : EdgeMarks := ⟨false, false, false⟩

/-- The run flags with those that a used edge's marks record (R110). -/
def RunFlags.use (f : RunFlags) (m : EdgeMarks) : RunFlags :=
  { f with
    gap := f.gap || m.gap
    nominal := f.nominal || m.nominal
    unepoched := f.unepoched || m.unepoched }

/-- The run flags with SATURATED recorded where `b` says that a limit was met (R133). -/
def RunFlags.saturatedIf (f : RunFlags) (b : Bool) : RunFlags :=
  { f with saturated := f.saturated || b }

/-- The kind and flags word of a result record (Table 11-5). -/
def flagsWord (kind : SlotKind) (values : Bool) (f : RunFlags) : Nat :=
  packedValue ([num 2 kind.code, num 2 0, bit values] ++ f.fields)

/-- A raise of an attention kind with a detail, by its enable (R169). -/
def Attn.raise (a : Attn) (detail : List Field) : Attn :=
  if a.enable then { a with flag := true, detail := detail } else a

/-- Whether a raise sends the kind to the pending-notice set (R169): its enable is on, its flag was
clear and its notice bit is on. -/
def Attn.joins (a : Attn) : Bool := a.enable && !a.flag && a.notice

/-- The pending-notice set with a kind joined, at most once (R170). -/
def joinNotices (k : AttnKind) (ks : List AttnKind) : List AttnKind :=
  if k ∈ ks then ks else ks ++ [k]

end Sys2Proof.Machine
end

