-- ==== Sys2Proof/Machine/Ops.lean ====
section
/-!
DEFINITION. The named operations over the state that every family shares: attentions, transmit slots,
the arrival of a cell, the taking of a command and its reply, and free choices of order.
-/

namespace Sys2Proof.Machine

/-! ## Records of the state by number -/

def State.setChannel (s : State) (c : Fin 16) (x : Channel) : State :=
  { s with channels := s.channels.set c x }

def State.setTable (s : State) (t : Fin 8) (x : Table) : State :=
  { s with tables := s.tables.set t x }

def State.setSlot (s : State) (i : Fin 8) (x : Slot) : State :=
  { s with slots := s.slots.set i x }

def State.setMarker (s : State) (m : Fin 4) (x : Marker) : State :=
  { s with markers := s.markers.set m x }

/-! ## Free choices of order -/

/-- Which of the things that fall at one moment is taken first: the only one, or the one that the
free value of choice number `n` names (`Config.pick`). Answers it, the others, and the number of the
next choice. -/
def choose {α : Type} (n : Nat) : List α → Option (α × List α × Nat)
  | [] => none
  | [x] => some (x, [], n)
  | x :: y :: rest =>
    let all := x :: y :: rest
    let k := Config.pick n % all.length
    some (all.getD k x, all.eraseIdx k, n + 1)

/-! ## Attentions (R169, R170) -/

/-- A block raises attention kind `k` with a detail (R169, R170). -/
def raise (k : AttnKind) (detail : List Field) (s : State) : State :=
  let a := s.command.attns.get k.code
  { s with
    command :=
      { s.command with
        attns := s.command.attns.set k.code (a.raise detail)
        notices := if a.joins then joinNotices k s.command.notices else s.command.notices } }

/-! ## Transmit slots and the arrival of a cell (R156, R158) -/

/-- The slot of a received cell, to be sent when it falls due (R158, R159). -/
def pushSlot (t : TxSlot) (s : State) : State :=
  { s with link := { s.link with slots := s.link.slots ++ [t] } }

/-- The receiver goes back to HUNT (R156). -/
def toHunt (s : State) : State := { s with link := { s.link with align := .hunt } }

/-- A good cell arrives (R156). In LOCKED the bad-cell run becomes 0 and the cell is handed on; in
CONFIRMING a data-form cell is a cell other than a good FILL cell, so the receiver returns to HUNT;
in HUNT, and while RESETn is low, it has no effect. -/
def receive (handOn : State → State) (s : State) : State :=
  if s.held then s
  else
    match s.link.align with
    | .hunt => s
    | .confirming => toHunt s
    | .locked => handOn { s with link := { s.link with badRun := 0 } }

/-! ## Commands and replies (R165, R166, R176) -/

/-- How a command's destination meets the part (R158, R165). -/
inductive Selection where
  /-- the part takes and consumes it, and answers -/
  | addressed
  /-- the part takes and relays it, and does not answer -/
  | broadcast
  /-- it is for another node: relayed -/
  | other
  deriving DecidableEq, Repr

/-- The destination rows of R158: destination 0 selects an UNNAMED part, 15 is the broadcast, and
1..14 selects the part whose address it is. -/
def selects (n : Node) (dest : Nat) : Selection :=
  if dest = 15 then .broadcast
  else if dest = 0 then (if n.state = .unnamed then .addressed else .other)
  else if dest = n.address then .addressed else .other

/-- What a command's own rule makes of it: the state it leaves, the reply code and the result. -/
structure Answer where
  state : State
  code : ReplyCode
  fields : List Field
  deriving DecidableEq, Repr

/-- A command refused, or answered, with no effect. -/
def Answer.still (s : State) (code : ReplyCode) (fields : List Field := []) : Answer :=
  ⟨s, code, fields⟩

/-- A reply joins the reply queue (R166). -/
def queueReply (tag : Byte) (code : ReplyCode) (fields : List Field) (s : State) : State :=
  { s with command := { s.command with replies := s.command.replies ++ [⟨tag, code, fields⟩] } }

/-- The codes of the commands that do not abandon an OPEN load: NODE-RESET, STATUS and the load
commands (R176). -/
def keepsLoad (code : Nat) : Bool := code ∈ [3, 4, 10, 11, 12, 13]

/-- A command outside the load set, taken while the buffer is OPEN, empties the buffer and raises
LOAD (R176). -/
def abandonLoad (code : Nat) (s : State) : State :=
  let l := s.command.load
  if l.phase = .opened && !keepsLoad code then
    raise .load [num 4 l.target.code, num 7 l.words.length, num 6 code]
      { s with command := { s.command with load := .reset } }
  else s

/-- A command the part takes: the load is abandoned first where R176 says so, then the command is
judged and carried out, and its reply queued where it was addressed (R165). -/
def carryOut (code : Nat) (tag : Byte) (answers : Bool) (judge : State → Answer) (s : State) : State :=
  let a := judge (abandonLoad code s)
  if answers then queueReply tag a.code a.fields a.state else a.state

/-- A COMMAND cell with command code `code` is handed on (R158, R165, R166). `judge broadcast` is the
command's own rule. An addressed command that finds 8 replies queued is discarded with REPLY-LOST. -/
def handCommand (code : Nat) (c : Cell) (judge : Bool → State → Answer) (s : State) : State :=
  match selects s.node (cellNode c) with
  | .other => pushSlot (.relay c) s
  | .broadcast => carryOut code (cellTag c) false (judge true) (pushSlot (.relay c) s)
  | .addressed =>
    if Config.replyEntries ≤ s.command.replies.length then
      raise .replyLost [num 8 (cellTag c).toNat, num 6 code] (pushSlot .free s)
    else carryOut code (cellTag c) true (judge false) (pushSlot .free s)

/-- A COMMAND cell arrives. -/
def takeCommand (code : Nat) (c : Cell) (judge : Bool → State → Answer) : State → State :=
  receive (handCommand code c judge)

/-! ## References to a channel (R25) -/

/-- Whether a slot, not IDLE, references a channel in any of the ways that R25 lists. -/
def Slot.references (x : Slot) (c : Fin 16) : Bool :=
  x.state != .idle &&
    (x.config.endpointA.channel == c ||
      (match x.config.endpointB with
        | some e => e.channel == c
        | none => false) ||
      (match x.config.armSource with
        | .armEdge e => e.channel == c
        | _ => false) ||
      (match x.config.gate with
        | .external g _ => g == c
        | _ => false))

/-- A channel is in use: a slot that is not IDLE references it, or it is the source of an active
calibration run (R25, R44). -/
def inUse (s : State) (c : Fin 16) : Bool :=
  s.slots.cells.any (·.references c) || (s.cal.active && s.cal.channel == c)

end Sys2Proof.Machine
end

