-- ==== Sys2Proof/Machine/Markers.lean ====
section
/-!
DEFINITION. The Marker Outputs (chapter 10): the width rule, the requests of the sources, and the
marker commands and events.
-/

namespace Sys2Proof.Machine

/-! ## The pin and the width rule (R147) -/

/-- The wanted pin level: HIGH for ACTIVE and LOW for INACTIVE, swapped under invert (R147). -/
def Marker.wanted (m : Marker) : PinLevel := if m.request != m.invert then .high else .low

/-- Hold-until: the last transition plus w, but for a node reset's own transition while it waits, which is
judged against the hold-until of the width before the reset (R147). -/
def Marker.holdUntil (m : Marker) : Nat := m.resetHold.getD (m.lastTransition + m.width)

/-- The wanted level is compared with the pin at marker time `now` (R147). Where they agree there is no
transition, and a node reset's own no longer waits: a level that differs later is a new requested
transition, under the width in force. Where they differ the transition is made if `now` is at or past
hold-until, and otherwise is deferred. -/
def Marker.act (now : Nat) (m : Marker) : Marker :=
  if m.wanted = m.pin then { m with resetHold := none }
  else if m.holdUntil ≤ now then
    { m with pin := m.wanted, lastTransition := now, resetHold := none }
  else m

/-- The request takes a value (R147). -/
def Marker.ask (now : Nat) (r : Bool) (m : Marker) : Marker := ({ m with request := r }).act now

/-- A result of the slot that a DONE marker follows (R152). -/
def Marker.pulse (now : Nat) (m : Marker) : Marker :=
  ({ m with request := true, pulseEnd := some (now + Nat.max m.width 1) }).act now

/-- Marker time reaches the pulse end (R152). -/
def Marker.endPulse (now : Nat) (m : Marker) : Marker :=
  ({ m with request := false, pulseEnd := none }).act now

/-- Whether the pulse end has been reached at marker time `now`. -/
def Marker.pulseDue (now : Nat) (m : Marker) : Bool :=
  match m.pulseEnd with
  | some p => decide (p ≤ now)
  | none => false

/-- Whether a deferred transition falls due at marker time `now` (R147). -/
def Marker.holdDue (now : Nat) (m : Marker) : Bool :=
  decide (m.wanted ≠ m.pin) && decide (m.holdUntil ≤ now)

/-! ## The requests of the sources (R149, R150) -/

/-- Whether a gate of the slot is open (R149). -/
def Slot.gateOpen (x : Slot) : Bool :=
  match x.state with
  | .opening | .rateCounting | .seekA | .seekB | .totalCounting | .held => true
  | .closing => x.run.pendingGate.isSome
  | .idle | .armed => false

/-- Whether the slot's plan is in a step whose marker bit `b` is 1 (R149). -/
def Slot.stepBit (x : Slot) (b : Fin 4) : Bool :=
  match x.state, x.config.gate, x.run.stepEnd, x.run.stepRecord with
  | .idle, _, _, _ => false
  | _, .plan _, some _, some p => p.markers.getLsbD b.val
  | _, _, _, _ => false

/-- The request of TIMEBASE(p) at a count (R150). -/
def timebaseRequest (p : Nat) (count : Coarse) : Bool := decide (count.toNat % p < p / 2)

/-- The starting request of a source (Table 10-1), read from the state as it stands. -/
def startingRequest (s : State) (held : Bool) : MarkerSource → Bool
  | .off => false
  | .level => held
  | .gate i => (s.slots.get i).gateOpen
  | .armed i => (s.slots.get i).state == .armed
  | .step i b => (s.slots.get i).stepBit b
  | .done _ => false
  | .divider _ => false
  | .timebase p => timebaseRequest p s.timebase.count

/-- Whether a source follows the state of slot `i` (R149). -/
def MarkerSource.follows (i : Fin 8) : MarkerSource → Bool
  | .gate j | .armed j | .step j _ => i == j
  | _ => false

/-- The GATE, ARMED and STEP markers of slot `i` take their requests from its state (R149). -/
def refreshSlotMarkers (i : Fin 8) (s : State) : State :=
  { s with
    markers := s.markers.map fun m =>
      if m.source.follows i then m.ask s.markerTime (startingRequest s m.held m.source) else m }

/-- The TIMEBASE markers re-form their requests from the count (R150). -/
def refreshTimebaseMarkers (s : State) : State :=
  { s with
    markers := s.markers.map fun m =>
      match m.source with
      | .timebase p => m.ask s.markerTime (timebaseRequest p s.timebase.count)
      | _ => m }

/-- Every DIVIDER marker of the channel toggles its request at a release (R151). -/
def toggleDividers (c : Fin 16) (s : State) : State :=
  { s with
    markers := s.markers.map fun m =>
      if m.source = .divider c then m.ask s.markerTime (!m.request) else m }

/-- Every DONE marker of the slot takes a result (R152). -/
def signalDone (i : Fin 8) (s : State) : State :=
  { s with
    markers := s.markers.map fun m =>
      if m.source = .done i then m.pulse s.markerTime else m }

/-- The end of a coarse period shows on the pins the levels left by the period's last transitions
(R147; DEDUCED, log entry 12). -/
def showPins (s : State) : State :=
  { s with markers := s.markers.map fun m => { m with shown := m.pin } }

/-! ## Events of marker time -/

/-- The events of one marker that marker time makes due at `now`: true for the hold's expiry, false
for the pulse's end. -/
def Marker.dueEvents (now : Nat) (m : Marker) : List Bool :=
  (if m.holdDue now then [true] else []) ++ (if m.pulseDue now then [false] else [])

/-- One event of a marker at marker time `now`. -/
def Marker.takeEvent (now : Nat) (m : Marker) (hold : Bool) : Marker :=
  if hold then m.act now else m.endPulse now

/-- The events of marker `i` that its marker time has made due, where both fall together in the order
that a free choice gives (R154 leaves it open). -/
def settleMarker (s : State) (i : Fin 4) : State :=
  let m := s.markers.get i
  match choose s.choices (m.dueEvents s.markerTime) with
  | none => s
  | some (e, others, n) =>
    let m := others.foldl (fun m e => m.takeEvent s.markerTime e) (m.takeEvent s.markerTime e)
    { s.setMarker i m with choices := n }

/-- A marker after a node reset taken at marker time `now` (R146, R177): source OFF, width 0, request
INACTIVE and the rest at its reset value; the pin goes LOW at once or, where a hold of the width in
force before the reset runs, when that hold expires. Every later transition is made under the width 0
(R147). A second node reset while the first one's transition waits finds the width 0 in force, so it makes
the pin LOW at once (DEDUCED, log entry 33). -/
def Marker.nodeReset (now : Nat) (m : Marker) : Marker :=
  let r : Marker :=
    { Marker.reset with
      pin := m.pin, shown := m.shown, lastTransition := m.lastTransition
      resetHold := some (m.lastTransition + m.width) }
  r.act now

/-! ## Commands and events -/

/-- The reply of every marker command: source with its parameter, invert, width, held level and pin
level (R148). -/
def Marker.fields (m : Marker) : List Field :=
  m.source.fields ++
    [bit m.invert, num 16 m.width, num 1 (if m.held then 0 else 1), num 1 m.pin.code]

/-- A marker command on marker number `n` (R148): refused RANGE where the marker or the value is out
of range, otherwise DONE with the marker changed by `f`. -/
def markerCommand {α : Type} (n : Nat) (value : Option α) (f : State → α → Marker → Marker)
    (s : State) : Answer :=
  match inRange 4 n with
  | none => .still s .range
  | some i =>
    let m := s.markers.get i
    match value with
    | none => .still s .range m.fields
    | some v =>
      let m' := f s v m
      ⟨s.setMarker i m', .done, m'.fields⟩

/-- MARK-SET SOURCE on a marker (R148). -/
def Marker.setSource (s : State) (src : MarkerSource) (m : Marker) : Marker :=
  ({ m with source := src, pulseEnd := none }).ask s.markerTime (startingRequest s m.held src)

/-- MARK-SET INVERT on a marker (R148). -/
def Marker.setInvert (s : State) (v : Bool) (m : Marker) : Marker :=
  ({ m with invert := v }).act s.markerTime

/-- MARK-SET WIDTH on a marker: hold-until is the last transition plus the new width (R147), for a node
reset's transition that waits as well (DEDUCED, log entry 33). -/
def Marker.setWidth (s : State) (w : Nat) (m : Marker) : Marker :=
  ({ m with width := w, resetHold := none }).act s.markerTime

/-- MARK-LEVEL on a marker (R148). -/
def Marker.setHeld (s : State) (v : Bool) (m : Marker) : Marker :=
  if m.source = .level then ({ m with held := v }).ask s.markerTime v else { m with held := v }

/-- MARK-SET SOURCE (R148). -/
def execMarkSetSource (c : Cell) (marker : Nat) (source : SourceArg) (s : State) :
    Host.Outcome State Fault Refusal :=
  .next (takeCommand 24 c (fun _ s => markerCommand marker (sourceOf source) Marker.setSource s) s)

/-- MARK-SET INVERT (R148). -/
def execMarkSetInvert (c : Cell) (marker value : Nat) (s : State) :
    Host.Outcome State Fault Refusal :=
  .next (takeCommand 24 c (fun _ s => markerCommand marker (flagOf value) Marker.setInvert s) s)

/-- MARK-SET WIDTH (R147, R148). -/
def execMarkSetWidth (c : Cell) (marker width : Nat) (s : State) :
    Host.Outcome State Fault Refusal :=
  .next
    (takeCommand 24 c
      (fun _ s =>
        markerCommand marker (if width ≤ Config.maxCount16 then some width else none)
          Marker.setWidth s) s)

/-- MARK-LEVEL (R148): ACTIVE 0, INACTIVE 1. -/
def execMarkLevel (c : Cell) (marker level : Nat) (s : State) :
    Host.Outcome State Fault Refusal :=
  .next
    (takeCommand 25 c
      (fun _ s => markerCommand marker ((flagOf level).map (!·)) Marker.setHeld s) s)

/-- MARKER_HOLD_EXPIRY (R147): marker time is at hold-until, and the expiry is taken ahead of the other
events of the period that follow in the queue (R154; log entry 3). -/
def execMarkerHoldExpiry (marker : Fin 4) (s : State) : Host.Outcome State Fault Refusal :=
  let m := s.markers.get marker
  .next
    (if !s.held && m.holdDue s.markerTime then s.setMarker marker (m.act s.markerTime) else s)

/-- DONE_PULSE_END (R152): marker time is at the pulse end, and the end is taken ahead of the other
events of the period that follow in the queue (R154; log entry 3). -/
def execDonePulseEnd (marker : Fin 4) (s : State) : Host.Outcome State Fault Refusal :=
  let m := s.markers.get marker
  .next
    (if !s.held && m.pulseDue s.markerTime then
      s.setMarker marker (m.endPulse s.markerTime)
     else s)

end Sys2Proof.Machine
end

