-- ==== Sys2Proof/Machine/Results.lean ====
section
/-!
DEFINITION. Measurement arithmetic and result records (chapter 8), the Result Queue (chapter 9) and
its command QUEUE-SET.
-/

namespace Sys2Proof.Machine

/-! ## Measurement arithmetic (R117 to R125) -/

/-- T, and whether it was substituted (R119). -/
def rateSpan (t0 t1 : Stamp) : Nat × Bool :=
  let d := stampDiff t1 t0
  if 0 < d then (d.toNat, false) else (2 ^ 58 - 1, true)

/-- F in mHz from NP and T, and whether it saturated (R120). -/
def frequency (np t : Nat) : Nat × Bool :=
  let f := roundedHalfUp (np * Config.fuPerSecondMilli) t
  if 2 ^ 64 - 1 < f then (2 ^ 64 - 1, true) else (f, false)

/-- Q, the mean period in 1/256 fu, from T and NP (R121). -/
def meanPeriod (np t : Nat) : Nat := roundedHalfUp (256 * t) np

/-- A sample from the pending A and the completing B stamp, and whether it was substituted (R123). -/
def intervalSample (a b : Stamp) : Nat × Bool :=
  let d := stampDiff b a
  if 0 < d ∧ d < 2 ^ 56 then (d.toNat, false) else (2 ^ 56 - 1, true)

/-- The sum with a sample added, and whether it saturated (R122). -/
def addSample (sum x : Nat) : Nat × Bool :=
  if 2 ^ 64 - 1 < sum + x then (2 ^ 64 - 1, true) else (sum + x, false)

/-- The lesser of a least value, where there is one, and `x` (R122). -/
def leastOf (m : Option Nat) (x : Nat) : Nat :=
  match m with
  | some y => if x < y then x else y
  | none => x

/-- The greater of a greatest value, where there is one, and `x` (R122). -/
def greatestOf (m : Option Nat) (x : Nat) : Nat :=
  match m with
  | some y => if y < x then x else y
  | none => x

/-- The mean of a batch, 0 where it has no sample (R124, R128). -/
def intervalMean (sum count : Nat) : Nat := if count = 0 then 0 else roundedHalfUp sum count

/-- net = countA − countB, held to −(2^47 − 1)..2^47 − 1 (R125). -/
def netCount (a b : Nat) : Int :=
  Max.max (-(2 ^ 47 - 1)) (Min.min (2 ^ 47 - 1) ((a : Int) - (b : Int)))

/-! ## Result records as bytes (R163) -/

/-- The kind of a record (R126). -/
def RecordBody.kind : RecordBody → SlotKind
  | .rate _ _ _ _ _ _ => .rate
  | .interval _ _ _ _ _ _ => .interval
  | .total _ _ _ _ _ => .total

/-- The record bytes from byte 8 on (Table 11-4). -/
def RecordBody.fields : RecordBody → List Field
  | .rate p n t0 t1 f q =>
    [num 24 p, num 40 n, num 64 t0.toNat, num 64 t1.toNat, num 64 f, num 72 q]
  | .interval c mn mx sum mean e =>
    [num 16 c, num 56 mn, num 56 mx, num 64 sum, num 56 mean, num 64 e.toNat]
  | .total a b net o c => [num 40 a, num 40 b, signed 48 net, num 64 o.toNat, num 64 c.toNat]

/-- All bytes of a record, as fields (Table 11-4). -/
def Record.fields (r : Record) : List Field :=
  [num 16 r.seq.toNat, num 32 r.gateIndex, num 16 (flagsWord r.body.kind r.values r.flags)]
    ++ r.body.fields

/-- How many segments, and so cells, a result record takes (R137, R163). -/
def RecordBody.cells : RecordBody → Nat
  | .rate _ _ _ _ _ _ => 7
  | .interval _ _ _ _ _ _ => 7
  | .total _ _ _ _ _ => 6

/-- The seven content bytes of segment `seg`, as one number (R163): record bytes not named are 0. -/
def Record.segment (r : Record) (seg : Nat) : Nat :=
  packInto (56 * r.body.cells) r.fields / 2 ^ (56 * (r.body.cells - 1 - seg)) % 2 ^ 56

/-- The segment descriptor of a RESULT cell (Table 11-3). -/
def segmentDescriptor (slot seg : Nat) (last : Bool) : Nat :=
  packedValue [num 3 slot, num 3 seg, bit last, num 1 0]

/-! ## The Result Queue (R137 to R142) -/

/-- A record's size in cells (R137). -/
def QueueRecord.size : QueueRecord → Nat
  | .result r => r.body.cells
  | .stamp _ _ _ _ => 1
  | .gap _ _ => 1

/-- The cells of a list of records. -/
def cellsOf : List QueueRecord → Nat
  | [] => 0
  | r :: rs => r.size + cellsOf rs

/-- The occupancy: the sum of the sizes of the records held (R137). -/
def ResultQueue.occupancy (q : ResultQueue) : Nat := cellsOf q.records

/-- A record is appended, and HIGH raised where the occupancy comes to the threshold from below it
(R138, R142). -/
def appendRecord (r : QueueRecord) (s : State) : State :=
  let o := s.results.occupancy
  let s' := { s with results := { s.results with records := s.results.records ++ [r] } }
  if o < s.results.threshold ∧ s.results.threshold ≤ o + r.size then
    raise .high [num 10 (o + r.size)] s'
  else s'

/-- A record is dropped: the pending-gap count, its limit mark and the GAP attention (R140). -/
def dropRecord (s : State) : State :=
  let g := countUp Config.maxCount16 s.results.gaps
  raise .gap [num 16 g]
    { s with
      results :=
        { s.results with
          gaps := g
          gapLimit := s.results.gapLimit || s.results.gaps == Config.maxCount16 } }

/-- The GAP record carrying the pending-gap count is appended, and the count and mark cleared
(R139, R140). -/
def appendGap (s : State) : State :=
  appendRecord (.gap s.results.gaps s.results.gapLimit)
    { s with results := { s.results with gaps := 0, gapLimit := false } }

/-- A record is offered to the Result Queue (R138, R139). -/
def offer (r : QueueRecord) (s : State) : State :=
  let o := s.results.occupancy
  if s.results.gaps = 0 then
    if o + r.size ≤ Config.resultCells then appendRecord r s else dropRecord s
  else if o + 1 + r.size ≤ Config.resultCells then appendRecord r (appendGap s)
  else if o + 1 ≤ Config.resultCells then dropRecord (appendGap s)
  else dropRecord s

/-- The stamp record of a released edge (R136): the stamp cut to 56 bits. -/
def Edge.stampRecord (e : Edge) : QueueRecord :=
  .stamp e.channel e.sense e.marks (e.stamp.setWidth 56)

/-- A result leaves its slot (R109): its record is offered where report is on, SLOT is raised, and the
DONE markers are signalled. -/
def publish (report : Bool) (r : Record) (s : State) : State :=
  signalDone r.slot
    (raise .slot [num 3 r.slot] (if report then offer (.result r) s else s))

/-- QUEUE-SET (R143). -/
def execQueueSet (c : Cell) (threshold : Nat) (s : State) : Host.Outcome State Fault Refusal :=
  .next
    (takeCommand 26 c
      (fun _ s =>
        let report (q : ResultQueue) : List Field :=
          [num 10 q.threshold, num 10 q.occupancy, num 16 q.gaps]
        if between 1 Config.resultCells threshold then
          let q := { s.results with threshold := threshold }
          ⟨{ s with results := q }, .done, report q⟩
        else .still s .range (report s.results)) s)

end Sys2Proof.Machine
end

