-- ==== Sys2Proof/Machine/Slots.lean ====
section
/-!
DEFINITION. The state machine of one Measurement Slot (chapter 7): what opens and closes its gates,
what it does with a delivered edge, and the results it produces. Nothing here reads another block; the
plan, the release mark and the slot's number are given.

A slot event answers the slot it leaves and the result records it produced, in order.
-/

namespace Sys2Proof.Machine

/-- What a slot event answers. -/
abbrev SlotOut := Slot × List Record

/-- Whether an edge's label matches a reference's sense: ANY matches either (R89). -/
def RefSense.admits : RefSense → Sense → Bool
  | .rise, .rise | .fall, .fall | .any, _ => true
  | _, _ => false

/-- Whether a released edge matches a reference (R93). -/
def Endpoint.admits (r : Endpoint) (e : Edge) : Bool := r.channel == e.channel && r.sense.admits e.sense

/-- Whether an edge matches endpoint B, where there is one. -/
def Slot.admitsB (x : Slot) (e : Edge) : Bool :=
  match x.config.endpointB with
  | some b => b.admits e
  | none => false

/-- A slot event that produces a result, after which the slot goes on by `f`. -/
def produce (o : Slot × Record) (f : Slot → Slot) : SlotOut := (f o.1, [o.2])

/-! ## Small updates -/

/-- The slot with its run context changed. -/
def Slot.withRun (x : Slot) (f : Run → Run) : Slot := { x with run := f x.run }

/-- The slot with its run flags changed. -/
def Slot.withFlags (x : Slot) (f : RunFlags → RunFlags) : Slot :=
  x.withRun fun r => { r with flags := f r.flags }

/-- The slot returns to IDLE and its run context is discarded, but for the gate index, which returns to
0 only at the next arm (R91, R126; DEDUCED, log entry 32). -/
def Slot.finish (x : Slot) : Slot :=
  { x with state := .idle, run := { Run.empty with gateIndex := x.run.gateIndex } }

/-- The slot waits in ARMED for its next gate; under EXTERNAL the phase is WAIT-ACTIVE (R98, R102). -/
def Slot.awaitGate (x : Slot) : Slot :=
  { x with
    state := .armed
    run :=
      { x.run with
        tOpen := none, tClose := none, pendingGate := none
        extPhase :=
          match x.config.gate with
          | .external _ _ => some .waitActive
          | _ => x.run.extPhase } }

/-! ## Producing a result (R109) -/

/-- A result is produced (R109): the record is formed with the gate index, the sequence number and
the run flags (SATURATED added where the index stands at its limit, R126), the sequence number is
incremented, the record is retained, the flags are cleared and the gate index goes on past the gate
and past every gate that was passed over (R103). -/
def Slot.emit (i : Fin 8) (values : Bool) (body : RecordBody) (x : Slot) : Slot × Record :=
  let flags := x.run.flags.saturatedIf (x.run.gateIndex == Config.maxGateIndex)
  let r : Record :=
    { slot := i, gateIndex := x.run.gateIndex, seq := x.seq, values := values, flags := flags,
      body := body }
  ({ x with
      seq := x.seq + 1
      retained := some r
      run :=
        { x.run with
          flags := .clear
          gateIndex := Nat.min Config.maxGateIndex (x.run.gateIndex + 1 + x.run.passed)
          passed := 0 } }, r)

/-- The body of a result without values (R130). -/
def Slot.emptyBody (x : Slot) : RecordBody :=
  match x.config.kind with
  | .rate => .rate x.run.prescale 0 0 0 0 0
  | .interval => .interval 0 0 0 0 0 0
  | .total => .total 0 0 0 0 0

/-- A RATE result flagged NO-SIGNAL (R101, R104). -/
def Slot.emitNoSignal (i : Fin 8) (x : Slot) : Slot × Record :=
  (x.withFlags fun f => { f with noSignal := true }).emit i false x.emptyBody

/-- A RATE result with values, closed by the edge at `t1` (R119, R120, R121). -/
def Slot.emitRate (i : Fin 8) (t1 : Stamp) (x : Slot) : Slot × Record :=
  let t0 := x.run.t0.getD 0
  let span := rateSpan t0 t1
  let np := x.run.n * x.run.prescale
  let f := frequency np span.1
  (x.withFlags fun fl => fl.saturatedIf (span.2 || f.2)).emit i true
    (.rate x.run.prescale x.run.n t0 t1 f.1 (meanPeriod np span.1))

/-- An INTERVAL batch ends at `t` and produces its result (R106, R124, R128): SHORT where it has fewer
than M samples. A pending A is dropped. -/
def Slot.emitBatch (i : Fin 8) (t : Stamp) (x : Slot) : Slot × Record :=
  (({ x with run := { x.run with pendingA := none } } : Slot).withFlags fun f =>
      { f with short := f.short || decide (x.run.count < x.config.samples) }).emit i true
    (.interval x.run.count (x.run.min.getD 0) (x.run.max.getD 0) x.run.sum
      (intervalMean x.run.sum x.run.count) t)

/-- A TOTAL gate ends at `t` and produces its result (R107, R125, R129). -/
def Slot.emitTotal (i : Fin 8) (t : Stamp) (x : Slot) : Slot × Record :=
  x.emit i true
    (.total x.run.countA x.run.countB (netCount x.run.countA x.run.countB) (x.run.tOpen.getD 0) t)

/-! ## Opening gates (R97 to R101) -/

/-- Whether the gate or batch with index `k` is within the repeats; R = 0 means until STOP (R89). -/
def Slot.withinRepeats (x : Slot) (k : Nat) : Bool :=
  x.config.repeats == 0 || decide (k < x.config.repeats)

/-- Whether the run has further gates, once a result has advanced the gate index (R97, R99, R100,
R106): under PLAN, while a step is in progress. -/
def Slot.moreGates (x : Slot) : Bool :=
  !x.run.lastGate &&
    (match x.config.gate with
      | .timed | .external _ _ => x.withinRepeats x.run.gateIndex
      | .plan _ => x.run.stepEnd.isSome
      | .openEnded => x.config.kind == .interval && x.withinRepeats x.run.gateIndex)

/-- A batch begins with its statistics empty, in SEEK-A (R105). -/
def Slot.beginBatch (x : Slot) : Slot :=
  { x with
    state := .seekA
    run := { x.run with pendingA := none, count := 0, min := none, max := none, sum := 0 } }

/-- A gate opens at `t`, to close at `close` where that is known (R97, R101, R105, R107). -/
def Slot.openGate (t : Stamp) (close : Option Stamp) (x : Slot) : Slot :=
  let x := x.withRun fun r => { r with tOpen := some t, tClose := close }
  match x.config.kind with
  | .rate =>
    { x with state := .opening, run := { x.run with t0 := none, lastA := none, n := 0 } }
  | .interval => x.beginBatch
  | .total =>
    { x with state := .totalCounting, run := { x.run with countA := 0, countB := 0 } }

/-- A TIMED gate opens at `t` (R97). -/
def Slot.openTimed (t : Stamp) (x : Slot) : Slot :=
  x.openGate t (some (addPeriods t x.config.length))

/-- The index of the gate after the gate in hand and those passed over since (R102, R103). -/
def Slot.nextIndex (x : Slot) : Nat :=
  Nat.min Config.maxGateIndex (x.run.gateIndex + 1 + x.run.passed)

/-- In CLOSING, the pending gate of a TIMED run at a close at `t`, while repeats remain
(R102, R103). -/
def Slot.formPending (t : Stamp) (x : Slot) : Slot :=
  if x.config.gate = .timed && !x.run.lastGate && x.withinRepeats x.nextIndex then
    x.withRun fun r =>
      { r with
        pendingGate :=
          some ⟨t, some (addPeriods t x.config.length), x.nextIndex, .clear⟩ }
  else x.withRun fun r => { r with pendingGate := none }

/-- The pending gate is passed over: it gives no result and its index is used up (R103). -/
def Slot.passOver (x : Slot) : Slot :=
  x.withRun fun r => { r with pendingGate := none, passed := r.passed + 1 }

/-- After a result at time `t`, where no pending gate was open (R97, R103, R106, R107): the next
TIMED gate opens at `t`; under EXTERNAL and PLAN the slot waits in ARMED; with no further gate the
run ends. -/
def Slot.afterGate (t : Stamp) (x : Slot) : Slot :=
  if x.moreGates then
    match x.config.gate with
    | .timed => x.openTimed t
    | _ => x.awaitGate
  else x.finish

/-- The gate in hand closes at `t` (R92, R101, R102, R106, R107). -/
def Slot.closeGate (i : Fin 8) (t : Stamp) (x : Slot) : SlotOut :=
  match x.state with
  | .opening =>
    produce (x.emitNoSignal i) (·.afterGate t)
  | .rateCounting =>
    ((({ x with state := .closing } : Slot).withRun fun r => { r with tClose := some t }).formPending t,
      [])
  | .seekA | .seekB =>
    produce (x.emitBatch i t) (·.afterGate t)
  | .totalCounting | .held =>
    produce (x.emitTotal i t) (·.afterGate t)
  | .idle | .armed | .closing => (x, [])

/-! ## Plans (R99) -/

/-- Plan step `n` starts at `t`: it is read, and a MEASURE step opens a gate, which in CLOSING is the
pending gate; through a WAIT step the slot is ARMED (R99, R102). -/
def Slot.startStep (plan : Bank PlanStep 64) (n : Fin 64) (t : Stamp) (x : Slot) : Slot :=
  let p := plan.get n
  let finish := addPeriods t p.length.toNat
  let x := x.withRun fun r =>
    { r with planStep := some n, stepRecord := some p, stepEnd := some finish }
  if p.kind = .measure ∧ x.run.lastGate = false then
    if x.state = .closing then
      x.withRun fun r => { r with pendingGate := some ⟨t, some finish, x.nextIndex, .clear⟩ }
    else x.openGate t (some finish)
  else if x.state = .closing then x
  else x.awaitGate

/-- The end of a plan step at `t` closes the step's gate, which in CLOSING is the pending gate, passed
over (R99, R103). -/
def Slot.closeStep (i : Fin 8) (t : Stamp) (x : Slot) : SlotOut :=
  if x.state = .closing then ((if x.run.pendingGate.isSome then x.passOver else x), [])
  else x.closeGate i t

/-- The action of the step that ended at `t` gives what follows (R99). -/
def Slot.followStep (plan : Bank PlanStep 64) (t : Stamp) (y : Slot) : Slot :=
  if y.state = .idle then y
  else
    match y.run.stepRecord, y.run.planStep with
    | some p, some n =>
      match p.action with
      | .next => y.startStep plan (n + 1) t
      | .jump m => y.startStep plan m t
      | .last =>
        let y := y.withRun fun r => { r with stepEnd := none }
        if y.state = .closing then y else y.finish
    | _, _ => y.finish

/-- The end of a plan step at `t` (R99, R103). -/
def Slot.endStep (i : Fin 8) (plan : Bank PlanStep 64) (t : Stamp) (x : Slot) : SlotOut :=
  let o := x.closeStep i t
  (o.1.followStep plan t, o.2)

/-! ## The arm point (R94 to R96) -/

/-- The arm point is taken at `t`: the first gate opens, the first step starts, or the watch for the
gate edges begins (R94). -/
def Slot.takeArmPoint (plan : Bank PlanStep 64) (t : Stamp) (x : Slot) : Slot :=
  let x := x.withRun fun r => { r with armAt := none, armWait := false, watching := true }
  match x.config.gate with
  | .timed => x.openTimed t
  | .openEnded => x.openGate t none
  | .plan first => x.startStep plan first t
  | .external _ _ => x

/-- W reaches the arm time `t`: the arm point, or under ARM-EDGE the start of the wait for the arm
edge (R94, R95). -/
def Slot.reachArmTime (plan : Bank PlanStep 64) (t : Stamp) (x : Slot) : Slot :=
  match x.config.armSource with
  | .armEdge _ => x.withRun fun r => { r with armAt := none, armWait := true }
  | _ => x.takeArmPoint plan t

/-- A run begins (R94): a fresh run context, P read from endpoint A's channel, the external-gate phase
from the gate channel's level (R98), and under PLAN the first step as current step (R115). -/
def Slot.beginRun (prescale : Nat) (level : Level) (x : Slot) : Slot :=
  { x with
    state := .armed
    run :=
      { Run.empty with
        prescale := prescale
        planStep :=
          match x.config.gate with
          | .plan first => some first
          | _ => none
        extPhase :=
          match x.config.gate with
          | .external _ .high =>
            some (if level = .high then .waitInactive else .waitActive)
          | .external _ .low =>
            some (if level = .low then .waitInactive else .waitActive)
          | _ => none } }

/-! ## Closing a RATE gate (R102 to R104) -/

/-- An endpoint A edge counts in N (R101, R102): N is incremented, saturating, and the edge's marks are
recorded. -/
def Slot.countEdge (e : Edge) (x : Slot) : Slot :=
  let n := countUp Config.maxEdgeCount x.run.n
  ({ x with run := { x.run with n := n } } : Slot).withFlags fun f =>
    (f.use e.marks).saturatedIf (n == Config.maxEdgeCount)

/-- What follows the result of the closing edge `e` (R102, R103): a pending gate that is open goes on
with `e` as its t0, in COUNTING; otherwise the slot waits in ARMED for a further gate, or ends. -/
def Slot.afterClosing (e : Edge) (pending : Option PendingGate) (y : Slot) : Slot :=
  match pending with
  | some p =>
    { y with
      state := .rateCounting
      run :=
        { y.run with
          gateIndex := p.index, tOpen := some p.tOpen, tClose := p.tClose, pendingGate := none
          t0 := some e.stamp, lastA := some e.stamp, n := 0
          flags := (RunFlags.clear.use p.marks).use e.marks } }
  | none => if y.moreGates then y.awaitGate else y.finish

/-- The closing edge is delivered in CLOSING (R102). -/
def Slot.closingEdge (i : Fin 8) (e : Edge) (x : Slot) : SlotOut :=
  produce ((x.countEdge e).emitRate i e.stamp) (·.afterClosing e x.run.pendingGate)

/-- The result of a gate whose closing edge did not come (R104): with values on the last A edge where
one came after t0, otherwise NO-SIGNAL. -/
def Slot.emitLate (i : Fin 8) (x : Slot) : Slot × Record :=
  if 0 < x.run.n then
    (x.withFlags fun f => { f with closeLate := true }).emitRate i (x.run.lastA.getD 0)
  else x.emitNoSignal i

/-- What follows the result of a gate whose closing edge did not come (R104): a pending gate goes on in
OPENING, under TIMED as a gate that opens at `t`; otherwise the next gate, or the end of the run. -/
def Slot.afterExpiry (t : Stamp) (pending : Option PendingGate) (y : Slot) : Slot :=
  match pending with
  | some p =>
    let y := y.withRun fun r => { r with gateIndex := p.index, pendingGate := none }
    if y.config.gate = .timed then y.openTimed t
    else (y.openGate p.tOpen p.tClose).withFlags fun f => f.use p.marks
  | none => y.afterGate t

/-- The close timeout expires at `t`, or a second STOP acts as its expiry (R104, R111). -/
def Slot.expireClose (i : Fin 8) (t : Stamp) (x : Slot) : SlotOut :=
  produce (x.emitLate i) (·.afterExpiry t x.run.pendingGate)

/-! ## Boundaries (R92) -/

/-- The boundaries of a slot (R92), each named by its row of the operation table. -/
inductive Boundary where
  | armTime
  | gateClose
  | closeTimeout
  | stepEnd
  deriving DecidableEq, Repr

/-- A boundary with its time, where the time is set. -/
def boundaryAt (k : Boundary) : Option Stamp → List (Boundary × Stamp)
  | some t => [(k, t)]
  | none => []

/-- The gate close that W is to take: that of the gate in hand, or in CLOSING that of a TIMED pending
gate. Under PLAN a close at the step's end is taken with the step's end (R92, R99, R103). -/
def Slot.closeTime (x : Slot) : Option Stamp :=
  match x.state, x.config.gate with
  | .closing, .timed => x.run.pendingGate.bind (·.tClose)
  | .closing, _ | .idle, _ | .armed, _ => none
  | _, .plan _ => if x.run.tClose = x.run.stepEnd then none else x.run.tClose
  | _, _ => x.run.tClose

/-- The boundaries that the slot has set, with their times (R92). -/
def Slot.boundaries (x : Slot) : List (Boundary × Stamp) :=
  match x.state with
  | .idle => []
  | .armed => boundaryAt .armTime x.run.armAt ++ boundaryAt .stepEnd x.run.stepEnd
  | .closing =>
    boundaryAt .gateClose x.closeTime ++
      boundaryAt .closeTimeout (x.run.tClose.map fun c => addPeriods c x.config.timeout) ++
      boundaryAt .stepEnd x.run.stepEnd
  | _ => boundaryAt .gateClose x.closeTime ++ boundaryAt .stepEnd x.run.stepEnd

/-- A boundary is taken at its time `t` (R92). -/
def Slot.takeBoundary (i : Fin 8) (plan : Bank PlanStep 64) (k : Boundary) (t : Stamp) (x : Slot) :
    SlotOut :=
  match k with
  | .armTime => (x.reachArmTime plan t, [])
  | .gateClose =>
    if x.state = .closing then (x.passOver.formPending t, []) else x.closeGate i t
  | .closeTimeout => x.expireClose i t
  | .stepEnd => x.endStep i plan t

/-- The boundaries that lie at or before `w`. -/
def Slot.reached (w : Stamp) (x : Slot) : List (Boundary × Stamp) :=
  x.boundaries.filter fun b => notLater b.2 w

/-- Of some boundaries, those at the earliest time (R92: boundaries are taken in time order). -/
def earliestOf : List (Boundary × Stamp) → List (Boundary × Stamp)
  | [] => []
  | b :: bs =>
    let t := bs.foldl (fun t c => earlierOf t c.2) b.2
    (b :: bs).filter fun c => c.2 == t

/-- The boundaries of a slot that are next to be taken at release mark `w`: those at the earliest time
of the ones W has reached. More than one only where they fall at one time. -/
def Slot.due (w : Stamp) (x : Slot) : List (Boundary × Stamp) := earliestOf (x.reached w)

/-! ## Delivered edges (R93) -/

/-- The arm edge (R96): its stamp is the arm point, and its marks are recorded where a gate opens
there (R110). -/
def Slot.matchArm (plan : Bank PlanStep 64) (e : Edge) (x : Slot) : Slot :=
  match x.state, x.config.armSource with
  | .armed, .armEdge r =>
    if x.run.armWait && r.admits e then
      let y := x.takeArmPoint plan e.stamp
      if y.state = .armed then y else y.withFlags fun f => f.use e.marks
    else x
  | _, _ => x

/-- Whether an edge goes to a gate's active level (R98). -/
def toActive (active : PinLevel) (e : Edge) : Bool :=
  match active with
  | .high => e.sense == .rise
  | .low => e.sense == .fall

/-- The gate reference under EXTERNAL gating (R98, R102, R103, R108). -/
def Slot.matchGate (i : Fin 8) (e : Edge) (x : Slot) : SlotOut :=
  match x.config.gate with
  | .external g active =>
    if g = e.channel && x.run.watching then
      match x.state, toActive active e with
      | .armed, true =>
        if x.run.extPhase = some .waitActive then
          ((x.openGate e.stamp none).withFlags fun f => f.use e.marks, [])
        else (x, [])
      | .armed, false => (x.withRun fun r => { r with extPhase := some .waitActive }, [])
      | .closing, true =>
        if x.run.pendingGate.isNone && !x.run.lastGate && x.withinRepeats x.nextIndex then
          (x.withRun fun r =>
            { r with pendingGate := some ⟨e.stamp, none, x.nextIndex, e.marks⟩ }, [])
        else (x, [])
      | .closing, false => (if x.run.pendingGate.isSome then x.passOver else x, [])
      | .idle, _ => (x, [])
      | _, true => (x, [])
      | _, false => (x.withFlags fun f => f.use e.marks).closeGate i e.stamp
    else (x, [])
  | _ => (x, [])

/-- An endpoint A edge of a RATE slot (R101, R102). -/
def Slot.rateEdge (i : Fin 8) (e : Edge) (x : Slot) : SlotOut :=
  if x.config.endpointA.admits e then
    match x.state with
    | .opening =>
      (({ x with
          state := .rateCounting
          run := { x.run with t0 := some e.stamp, lastA := some e.stamp, n := 0 } } : Slot).withFlags
        fun f => f.use e.marks, [])
    | .rateCounting => ((x.countEdge e).withRun fun r => { r with lastA := some e.stamp }, [])
    | .closing => x.closingEdge i e
    | _ => (x, [])
  else (x, [])

/-- The next batch begins at the completing edge `e` of a batch that ended at M (R106): under TIMED in
a new gate, else in the same gate; with shared edge on, in SEEK-B with `e` pending. R110 has a result use
the edge whose stamp enters its boundaries, and lists the arm edge and the gate edges. The spec leaves open
whether a later batch of one EXTERNAL, PLAN or OPEN gate uses the edge that opened the gate again, and
whether under TIMED the new gate's batch uses `e`, whose stamp becomes its t_open, where `e` is no A of it.
Here the marks of the edge that opened the gate stand in the first batch's result alone, and those of `e`
in the result that it completed, and in the next one only as an edge of a sample (DEDUCED, log entry 31). -/
def Slot.nextBatch (e : Edge) (x : Slot) : Slot :=
  let y := if x.config.gate = .timed then x.openTimed e.stamp else x.beginBatch
  if x.config.shared then
    { y with state := .seekB, run := { y.run with pendingA := some ⟨e.stamp, e.marks⟩ } }
  else y

/-- A sample from the pending A to edge `e` joins the batch's statistics (R122, R123). -/
def Slot.recordSample (a : PendingA) (e : Edge) (x : Slot) : Slot :=
  let v := intervalSample a.stamp e.stamp
  let sum := addSample x.run.sum v.1
  ({ x with
      run :=
        { x.run with
          count := x.run.count + 1
          min := some (leastOf x.run.min v.1)
          max := some (greatestOf x.run.max v.1)
          sum := sum.1 } } : Slot).withFlags fun f =>
    ((f.use a.marks).use e.marks).saturatedIf (v.2 || sum.2)

/-- What follows a batch that ended at M at edge `e` (R106). -/
def Slot.afterBatch (e : Edge) (y : Slot) : Slot := if y.moreGates then y.nextBatch e else y.finish

/-- A sample completes at edge `e` (R105, R106): the batch ends at M; otherwise the slot seeks the next
A, which with shared edge on is `e`. -/
def Slot.completeSample (i : Fin 8) (a : PendingA) (e : Edge) (x : Slot) : SlotOut :=
  let y := x.recordSample a e
  if y.config.samples ≤ y.run.count then produce (y.emitBatch i e.stamp) (·.afterBatch e)
  else if y.config.shared then
    (y.withRun fun r => { r with pendingA := some ⟨e.stamp, e.marks⟩ }, [])
  else ({ y with state := .seekA, run := { y.run with pendingA := none } }, [])

/-- A delivered edge at the endpoints of an INTERVAL slot (R105). -/
def Slot.intervalEdge (i : Fin 8) (e : Edge) (x : Slot) : SlotOut :=
  match x.state, x.run.pendingA with
  | .seekA, _ =>
    if x.config.endpointA.admits e then
      ({ x with state := .seekB, run := { x.run with pendingA := some ⟨e.stamp, e.marks⟩ } }, [])
    else (x, [])
  | .seekB, some a =>
    if x.admitsB e then
      if e.stamp = a.stamp then (x, []) else x.completeSample i a e
    else if x.config.endpointA.admits e && x.config.restart == .takeLatest then
      (x.withRun fun r => { r with pendingA := some ⟨e.stamp, e.marks⟩ }, [])
    else (x, [])
  | _, _ => (x, [])

/-- A delivered edge at the endpoints of a TOTAL slot (R107): counted in COUNTING, passed by in HELD. -/
def Slot.totalEdge (e : Edge) (x : Slot) : Slot :=
  if x.state = .totalCounting then
    let a := x.config.endpointA.admits e
    let b := x.admitsB e
    let countA := if a then countUp Config.maxEdgeCount x.run.countA else x.run.countA
    let countB := if b then countUp Config.maxEdgeCount x.run.countB else x.run.countB
    if a || b then
      ({ x with run := { x.run with countA := countA, countB := countB } } : Slot).withFlags fun f =>
        (f.use e.marks).saturatedIf
          ((a && countA == Config.maxEdgeCount) || (b && countB == Config.maxEdgeCount))
    else x
  else x

/-- The endpoints' match, by the slot's kind (R93). -/
def Slot.matchEndpoints (i : Fin 8) (e : Edge) (x : Slot) : SlotOut :=
  match x.config.kind with
  | .rate => x.rateEdge i e
  | .interval => x.intervalEdge i e
  | .total => (x.totalEdge e, [])

/-- A released edge of a channel that the slot references is delivered: the arm reference, the gate
reference, endpoint A and endpoint B, each seeing what the one before left (R93). -/
def Slot.deliver (i : Fin 8) (plan : Bank PlanStep 64) (e : Edge) (x : Slot) : SlotOut :=
  let g := (x.matchArm plan e).matchGate i e
  let o := g.1.matchEndpoints i e
  (o.1, g.2 ++ o.2)

/-! ## STOP, HOLD and the epoch step (R108, R111, R112) -/

/-- STOP at release mark `w` by the slot's state (Table 7-4); `none` where it is refused STATE. -/
def Slot.stop (i : Fin 8) (w : Stamp) (x : Slot) : Option SlotOut :=
  let stopped := x.withFlags fun f => { f with stopped := true }
  match x.state with
  | .idle => none
  | .armed => some (x.finish, [])
  | .opening =>
    some (produce (stopped.emitNoSignal i) Slot.finish)
  | .rateCounting =>
    let close :=
      match x.run.tClose with
      | some c => earlierOf (roundUp w) c
      | none => roundUp w
    some (stopped.withRun fun r => { r with tClose := some close, lastGate := true }, [])
  | .closing =>
    if x.run.flags.stopped then
      let o := x.expireClose i w
      some (o.1.finish, o.2)
    else some (stopped.withRun fun r => { r with pendingGate := none, lastGate := true }, [])
  | .seekA | .seekB =>
    some (produce (stopped.emitBatch i w) Slot.finish)
  | .totalCounting | .held =>
    some (produce (stopped.emitTotal i w) Slot.finish)

/-- A slot that is not IDLE ends on an epoch step with one result flagged EPOCH-STEP without values
(R112). -/
def Slot.epochEnd (i : Fin 8) (x : Slot) : SlotOut :=
  if x.state = .idle then (x, [])
  else
    produce ((x.withFlags fun f => { f with epochStep := true }).emit i false x.emptyBody)
      Slot.finish

end Sys2Proof.Machine
end

