-- ==== Sys2Proof/Machine/Release.lean ====
section
/-!
DEFINITION. The release sequence (chapter 6): moves of the release mark, the boundaries the slots take
at them, and the delivery of released edges to slots, stamp streams and DIVIDER markers.
-/

namespace Sys2Proof.Machine

/-! ## Slot events in the state -/

/-- A slot event takes effect (R109): the slot as it leaves it, its results in order, and the requests
of the markers that follow the slot (R149). -/
def applySlot (i : Fin 8) (out : SlotOut) (s : State) : State :=
  let s := s.setSlot i out.1
  let s := out.2.foldl (fun s r => publish out.1.config.report r s) s
  refreshSlotMarkers i s

/-- Slot `i` takes one boundary at its time (R92). -/
def takeSlotBoundary (i : Fin 8) (b : Boundary × Stamp) (s : State) : State :=
  applySlot i ((s.slots.get i).takeBoundary i s.plan b.1 b.2) s

/-- The boundaries of slot `i` that W has reached are taken one by one in time order, each of which
may set the next (R92). Where several fall at one time, a free choice says which is taken first. -/
def settleSlotLoop : Nat → Fin 8 → State → State
  | 0, _, s => s
  | fuel + 1, i, s =>
    match choose s.choices ((s.slots.get i).due s.queue.mark) with
    | none => s
    | some (b, _, n) =>
      settleSlotLoop fuel i (takeSlotBoundary i b { s with choices := n })

/-- Boundaries enough for the coarse periods that lie between the earliest due boundary and W: each
boundary that a boundary sets lies at least one coarse period later, and there are four kinds. -/
def settleFuel (x : Slot) (w : Stamp) : Nat :=
  match x.due w with
  | [] => 0
  | b :: _ => 8 * ((w - b.2).toNat / Config.fuPerCoarse + 2)

/-- Slot `i` takes every boundary that W has reached (R92). -/
def settleSlot (s : State) (i : Fin 8) : State :=
  settleSlotLoop (settleFuel (s.slots.get i) s.queue.mark) i s

/-- A slot event of a command or an edge, and the boundaries that it set at or before W, which are
taken at once (R92). -/
def slotEvent (i : Fin 8) (out : SlotOut) (s : State) : State := settleSlot (applySlot i out s) i

/-- The slots, in ascending number (R109). -/
def allSlots : List (Fin 8) := List.finRange 8

/-! ## The release sequence (R82 to R84) -/

/-- W moves to `t` where that is later, and every slot takes the boundaries it reaches, in ascending
slot number (R77, R92, R109). -/
def moveMark (t : Stamp) (s : State) : State :=
  if later t s.queue.mark then
    allSlots.foldl settleSlot { s with queue := { s.queue with mark := t } }
  else s

/-- A released edge is delivered to one slot, where the slot references its channel (R83). -/
def deliverTo (e : Edge) (s : State) (i : Fin 8) : State :=
  let x := s.slots.get i
  if x.references e.channel then slotEvent i (x.deliver i s.plan e) s else s

/-- A released edge is delivered: its stamp record first where its channel streams, then the slots in
ascending number, and the DIVIDER markers (R83, R84, R109, R135). -/
def deliverEdge (e : Edge) (s : State) : State :=
  let s := if (s.channels.get e.channel).set.stream then offer e.stampRecord s else s
  let s := allSlots.foldl (deliverTo e) s
  toggleDividers e.channel s

/-- One release: the move of W, then the edge (R82). -/
def release (s : State) (e : Edge) : State := deliverEdge e (moveMark e.stamp s)

/-- A frontier advance to `f` (R81): the held entries not later than `f` are released in queue order,
and W then moves to `f` where that is later. -/
def frontierAdvance (f : Stamp) (s : State) : State :=
  let out := s.queue.entries.takeWhile fun e => notLater e.stamp f
  let kept := s.queue.entries.dropWhile fun e => notLater e.stamp f
  moveMark f (out.foldl release { s with queue := { s.queue with entries := kept } })

/-! ## Arrival of a qualified edge (R76 to R80) -/

/-- Whether edge `a` stands before edge `b` in queue order: an earlier stamp, or an equal one and a
lower channel (R76). -/
def beforeInQueue (a b : Edge) : Bool :=
  earlier a.stamp b.stamp || (a.stamp == b.stamp && decide (a.channel.val < b.channel.val))

/-- An edge inserted at its place in queue order (R79). -/
def insertEdge (e : Edge) : List Edge → List Edge
  | [] => [e]
  | x :: xs => if beforeInQueue e x then e :: x :: xs else x :: insertEdge e xs

/-- A run flag is recorded in every slot that `which` names and that is not IDLE. -/
def recordFlag (which : Slot → Bool) (f : RunFlags → RunFlags) (s : State) : State :=
  { s with
    slots := s.slots.map fun x =>
      if x.state != .idle && which x then x.withFlags f else x }

/-- A LATE edge is discarded (R78). -/
def dropLate (e : Edge) (s : State) : State :=
  recordFlag (·.references e.channel) (fun f => { f with lateEdge := true })
    (raise .late [num 4 e.channel] s)

/-- A forced release (R80): of the held entries and the arriving edge, the first in queue order and
those with its stamp are released; REORDER is raised and recorded in every running slot. -/
def forcedRelease (e : Edge) (s : State) : State :=
  match insertEdge e s.queue.entries with
  | [] => s
  | first :: rest =>
    let out := first :: rest.takeWhile fun x => x.stamp == first.stamp
    let kept := rest.dropWhile fun x => x.stamp == first.stamp
    let s := out.foldl release { s with queue := { s.queue with entries := kept } }
    recordFlag (fun _ => true) (fun f => { f with reorder := true })
      (raise .reorder [num 4 first.channel] s)

/-- A qualified edge arrives at the Ordering Queue (R78, R79, R80). -/
def arrive (e : Edge) (s : State) : State :=
  if notLater e.stamp s.queue.mark then dropLate e s
  else if s.queue.entries.length < Config.queueEntries then
    { s with queue := { s.queue with entries := insertEdge e s.queue.entries } }
  else forcedRelease e s

/-- The queue empties itself without releasing and sets W to `f` (R85, R86). -/
def discardQueue (f : Stamp) (s : State) : State := { s with queue := { entries := [], mark := f } }

end Sys2Proof.Machine
end

