-- ==== Sys2Proof/Machine/Tables.lean ====
section
/-!
DEFINITION. The Table Store (chapter 4) and the Calibration Engine (chapter 5).
-/

namespace Sys2Proof.Machine

/-! ## The Table Store -/

/-- The fraction that a table hands a channel for a fine code, and whether it is nominal (R38, R52). -/
def Table.lookup (t : Table) (fine : Fin 256) : BitVec 12 × Bool :=
  match t.phase with
  | .nominal => (t.entries.get fine, true)
  | .updating _ _ => (nominalFraction fine, true)
  | .loaded => (t.entries.get fine, false)

/-- Whether a table is UPDATING (R51). -/
def Table.isUpdating (t : Table) : Bool :=
  match t.phase with
  | .updating _ _ => true
  | _ => false

/-- An update of table `t` to the merged table begins (R55). -/
def beginUpdate (t : Fin 8) (merged : Entries) (s : State) : State :=
  s.setTable t { s.tables.get t with phase := .updating 0 merged }

/-- The end of a coarse period counts for an update in progress (R55). -/
def Table.countPeriod (t : Table) : Table :=
  match t.phase with
  | .updating n m => { t with phase := .updating (n + 1) m }
  | _ => t

/-- The merged table of an update of which at least `n` periods have passed (R55). -/
def Table.updateDone (n : Nat) (t : Table) : Option Entries :=
  match t.phase with
  | .updating c m => if n ≤ c then some m else none
  | _ => none

/-- The update of table `t` ends: it takes the merged entries, becomes LOADED and raises TABLE
(R55, R59). -/
def endUpdate (t : Fin 8) (merged : Entries) (s : State) : State :=
  raise .table [num 3 t] (s.setTable t { phase := .loaded, entries := merged })

/-- The lowest index at which the shape check fails on a table's values from index `i` on, `prev` the
value before them: a value above 4095, or one less than the one before it (R54). -/
def shapeFailure : Nat → Nat → List Nat → Option Nat
  | _, _, [] => none
  | i, prev, v :: vs => if 4095 < v ∨ v < prev then some i else shapeFailure (i + 1) v vs

/-- Staged words laid over stored values at their indices (R53, R23). -/
def overlay (first : Nat) (staged : List Nat) (stored : Entries) : List Nat :=
  (List.finRange 256).map fun i =>
    if first ≤ i.val ∧ i.val < first + staged.length then staged.getD (i.val - first) 0
    else (stored.get i).toNat

/-- A checked list of values as the entries of a table. -/
def entriesOf (vs : List Nat) : Entries := .tabulate fun i => BitVec.ofNat 12 (vs.getD i.val 0)

/-- A table's conditions forbid a LOAD-OPEN (R57): it is UPDATING, or the target of an active
calibration run. -/
def loadForbidden (s : State) (t : Fin 8) : Bool :=
  (s.tables.get t).isUpdating || (s.cal.active && s.cal.table == t)

/-- TABLE_UPDATE_END (R55): the 500th period ends, and the update's end is taken ahead of the other
events that fall there (R61). -/
def execTableUpdateEnd (t : Fin 8) (s : State) : Host.Outcome State Fault Refusal :=
  .next
    (match (s.tables.get t).updateDone (Config.updatePeriods - 1) with
      | some m => if s.held then s else endUpdate t m s
      | none => s)

/-! ## The Calibration Engine -/

/-- The counts of the bins as one list. -/
def Calibration.counts (g : Calibration) : List Nat := g.bins.cells

/-- How many bins hold 0, at most the 255 that the field holds (R68, R69). -/
def emptyBinCount (bins : List Nat) : Nat := Nat.min 255 (bins.count 0)

/-- The greatest bin count and the lowest code that has it (R68). -/
def widestOf : Nat → List Nat → Nat × Nat
  | _, [] => (0, 0)
  | i, b :: bs =>
    let w := widestOf (i + 1) bs
    if w.1 ≤ b then (b, i) else w

/-- Entries of the computed table from a code on, `sum` the sum of the bins before it (R67):
floor((2 × S + h) × 4096 / (2 × L)), at most 4095. -/
def calEntries (l : Nat) : Nat → List Nat → List Nat
  | _, [] => []
  | sum, h :: hs => Nat.min 4095 ((2 * sum + h) * 4096 / (2 * l)) :: calEntries l (sum + h) hs

/-- The table computed from a completed histogram (R67). -/
def Calibration.computedTable (g : Calibration) : Entries := entriesOf (calEntries (2 ^ g.k) 0 g.counts)

/-- The quality results of an ended run, the widest bin taken against `total` hits (R68, R69). -/
def Calibration.withQuality (total : Nat) (g : Calibration) : Calibration :=
  let w := widestOf 0 g.counts
  { g with
    emptyBins := emptyBinCount g.counts
    widestBin := if total = 0 then 0 else w.1 * 4096 / total
    widestCode := if total = 0 then 0 else w.2 }

/-- The detail of the CAL attention (R71). -/
def Calibration.detail (g : Calibration) : List Field :=
  [num 3 g.outcome.code, num 3 g.table, num 8 g.emptyBins, num 13 g.widestBin]

/-- A run ends with an outcome: the run state is IDLE, and CAL is raised (R66, R68, R70, R71). -/
def endCalibration (g : Calibration) (outcome : CalOutcome) (s : State) : State :=
  let g := { g with active := false, outcome := outcome }
  raise .cal g.detail { s with cal := g }

/-- The run completes (R67, R68): FAIL-EMPTY where more bins are empty than the limit, else DONE and
the computed table handed to the Table Store (R56). -/
def completeCalibration (s : State) : State :=
  let g := s.cal.withQuality (2 ^ s.cal.k)
  if g.emptyLimit < g.emptyBins then endCalibration g .failEmpty s
  else beginUpdate g.table g.computedTable (endCalibration g .done s)

/-- Whether the run has gathered its hits (R65). -/
def Calibration.complete (g : Calibration) : Bool := g.active && decide (2 ^ g.k ≤ g.hits)

/-- CAL_COMPLETION (R67): the engine completes a run that has gathered its L hits. (The arrival of the
L-th hit completes it.) -/
def execCalCompletion (s : State) : Host.Outcome State Fault Refusal :=
  .next (if !s.held && s.cal.complete then completeCalibration s else s)

/-- An edge that passed the sense filter of channel `c` is offered to the engine (R37, R65): a hit of
an active run on that channel, and at the L-th hit its completion (R67). -/
def calibrationTap (c : Fin 16) (fine : Fin 256) (s : State) : State :=
  if s.cal.active && s.cal.channel == c then
    let s := { s with cal := { s.cal with bins := s.cal.bins.modify fine (· + 1), hits := s.cal.hits + 1 } }
    if s.cal.complete then completeCalibration s else s
  else s

/-- The run's time limit in coarse periods (R66). -/
def Calibration.limit (g : Calibration) : Nat := g.timeout * Config.periodsPerMs

/-- The time limit expires: the run ends FAIL-TIMEOUT (R66, R69). -/
def expireCalibration (s : State) : State :=
  endCalibration ({ s.cal with elapsed := s.cal.limit }.withQuality s.cal.hits) .failTimeout s

/-- CAL_TIMEOUT (R66): at the end of the period in progress the elapsed count reaches the limit, and
the expiry is taken ahead of the other events that fall there (R74). -/
def execCalTimeout (s : State) : Host.Outcome State Fault Refusal :=
  .next
    (if !s.held && s.cal.active && decide (s.cal.limit ≤ s.cal.elapsed + 1) then
      expireCalibration s
     else s)

/-- Whether a Capture Map entry hands edges to channel `c` (R22, R63). -/
def MapEntry.claims (c : Fin 16) (e : MapEntry) : Bool := e.action != .pass && e.channel == c

/-- Whether a FULL LIN load targets table `t` (R57). -/
def fullLoadOf (s : State) (t : Fin 8) : Bool :=
  s.command.load.phase == .full && s.command.load.target == .lin t

/-- CAL-RUN's own rule (R63, R64). -/
def calRun (table channel k timeout emptyLimit : Nat) (s : State) : Answer :=
  let reply := [num 3 table, num 4 channel, num 5 k]
  match inRange 8 table, inRange 16 channel with
  | some t, some c =>
    if !(between 12 20 k && between 1 65535 timeout && between 0 255 emptyLimit) then
      .still s .range reply
    else if s.cal.active || (s.tables.get t).isUpdating || fullLoadOf s t then .still s .busy reply
    else if !(s.channels.get c).set.enable || !s.map.cells.any (·.claims c) then
      .still s .state reply
    else
      let g : Calibration :=
        { active := true, table := t, channel := c, k := k, timeout := timeout,
          emptyLimit := emptyLimit, hits := 0, elapsed := 0, outcome := .running, emptyBins := 0,
          widestBin := 0, widestCode := 0, bins := .fill 256 0 }
      ⟨{ s with cal := g }, .accepted, reply⟩
  | _, _ => .still s .range reply

/-- CAL-RUN (R63). -/
def execCalRun (c : Cell) (table channel k timeout emptyLimit : Nat) (s : State) :
    Host.Outcome State Fault Refusal :=
  .next (takeCommand 15 c (fun _ s => calRun table channel k timeout emptyLimit s) s)

/-- CAL-CANCEL's own rule (R70). -/
def calCancel (s : State) : Answer :=
  if s.cal.active then
    ⟨endCalibration (s.cal.withQuality s.cal.hits) .cancelled s, .done,
      [num 21 s.cal.hits, num 16 (s.cal.elapsed / Config.periodsPerMs)]⟩
  else .still s .state [num 3 s.cal.outcome.code]

/-- CAL-CANCEL (R70). -/
def execCalCancel (c : Cell) (s : State) : Host.Outcome State Fault Refusal :=
  .next (takeCommand 16 c (fun _ s => calCancel s) s)

/-! ## TABLE-READ (R58, R73) -/

/-- Entry `i` of a table as a field, zero past index 255 (R58). -/
def Table.entryField (t : Table) (i : Nat) : Field :=
  match inRange 256 i with
  | some j => num 12 (t.entries.get j).toNat
  | none => num 12 0

/-- The reply part of the histogram and run record that an index selects (R73); `none` above 259. -/
def Calibration.part (g : Calibration) (index : Nat) : Option (List Field) :=
  match inRange 256 index with
  | some j => some [num 21 (g.bins.get j), num 3 g.outcome.code]
  | none =>
    match index with
    | 256 => some [num 3 g.table, num 4 g.channel, num 5 g.k, num 3 g.outcome.code]
    | 257 => some [num 21 g.hits, num 16 (g.elapsed / Config.periodsPerMs)]
    | 258 => some [num 16 g.timeout, num 8 g.emptyLimit]
    | 259 => some [num 8 g.emptyBins, num 13 g.widestBin, num 8 g.widestCode]
    | _ => none

/-- TABLE-READ's own rule (R58, R73). -/
def tableRead (target : ReadArg) (index : Nat) (s : State) : Answer :=
  match target with
  | .lin t =>
    match inRange 8 t, inRange 256 index with
    | some t, some _ =>
      let x := s.tables.get t
      if x.isUpdating then .still s .busy [num 2 x.phase.code, num 12 0, num 12 0, num 12 0]
      else
        .still s .done
          [num 2 x.phase.code, x.entryField index, x.entryField (index + 1), x.entryField (index + 2)]
    | _, _ => .still s .range
  | .histogram =>
    match s.cal.part index with
    | some fs => .still s .done fs
    | none => .still s .range
  | .other _ => .still s .range

/-- TABLE-READ (R58, R73). -/
def execTableRead (c : Cell) (target : ReadArg) (index : Nat) (s : State) :
    Host.Outcome State Fault Refusal :=
  .next (takeCommand 14 c (fun _ s => tableRead target index s) s)

end Sys2Proof.Machine
end

