-- ==== Sys2Proof/Machine/Channels.lean ====
section
/-!
DEFINITION. The Capture Map's lookup, coarse extension (chapter 2) and the Channel Units (chapter 3).
-/

namespace Sys2Proof.Machine

/-! ## Forming a stamp (R26, R38, R39) -/

/-- The age of an edge's short coarse field at a count (R26). -/
def coarseAge (count : Coarse) (coarse16 : BitVec 16) : Nat := (count.setWidth 16 - coarse16).toNat

/-- Coarse extension (R26): up to 61,440 periods old, otherwise 1 to 4,095 periods early. -/
def extendCoarse (count : Coarse) (coarse16 : BitVec 16) : Coarse :=
  let a := coarseAge count coarse16
  if a ≤ Config.oldestAge then count - BitVec.ofNat 47 a else count + BitVec.ofNat 47 (65536 - a)

/-- The stamp of an edge (R39): the deskew, signed, is subtracted. -/
def edgeStamp (full : Coarse) (fraction : BitVec 12) (deskew : BitVec 21) : Stamp :=
  stampOf full + fraction.setWidth 59 - deskew.signExtend 59

/-! ## The filters (R35, R40 to R42) -/

/-- The other sense. -/
def flipSense : Sense → Sense
  | .rise => .fall
  | .fall => .rise

/-- The edge's label (R35). -/
def ChanSettings.label (g : ChanSettings) (sense : Sense) : Sense :=
  if g.invert then flipSense sense else sense

/-- The sense filter (R35). -/
def ChanSense.passes : ChanSense → Sense → Bool
  | .rise, .rise | .fall, .fall | .both, _ => true
  | _, _ => false

/-- The level that a label sets (R36). -/
def levelOf : Sense → Level
  | .rise => .high
  | .fall => .low

/-- Steps 0 and 1 of the path: the source-gap flag and the level (R30, R36). -/
def ChanStatus.enter (st : ChanStatus) (label : Sense) (lost : Bool) : ChanStatus :=
  { st with sourceGap := st.sourceGap || lost, level := levelOf label }

/-- What the order check, holdoff and prescale make of a stamp (R40 to R42). -/
inductive Verdict where
  | orderFault
  | suppressed
  | uncounted
  | qualified
  deriving DecidableEq, Repr

/-- The order check, holdoff and prescale (R40, R41, R42), with the status they leave. -/
def judgeStamp (g : ChanSettings) (st : ChanStatus) (stamp : Stamp) : Verdict × ChanStatus :=
  let accept : Verdict × ChanStatus :=
    if g.prescale ≤ st.phase + 1 then (.qualified, { st with last := some stamp, phase := 0 })
    else (.uncounted, { st with last := some stamp, phase := st.phase + 1 })
  match st.last with
  | none => accept
  | some l =>
    if notLater stamp l then
      (.orderFault, { st with orderFaults := countUp Config.maxCount16 st.orderFaults })
    else if stampDiff stamp l < (g.holdoff.toNat * Config.fuPerCoarse : Nat) then
      (.suppressed, { st with suppressed := countUp Config.maxCount16 st.suppressed })
    else accept

/-- The status record of channel `c` replaced. -/
def setStatus (c : Fin 16) (st : ChanStatus) (s : State) : State :=
  s.setChannel c { s.channels.get c with status := st }

/-- An edge that has passed the sense filter, from coarse extension on (R34 steps 2 to 8). `arrival` is
the state at the edge's arrival, whose count, epoch state and bound table it reads. -/
def stampEdge (c : Fin 16) (label : Sense) (coarse16 : BitVec 16) (fine : Fin 256) (lost : Bool)
    (arrival s : State) : State :=
  let ch := s.channels.get c
  let fr := (arrival.tables.get ch.set.table).lookup fine
  let stamp := edgeStamp (extendCoarse arrival.timebase.count coarse16) fr.1 ch.set.deskew
  let marks : EdgeMarks := ⟨fr.2, lost, arrival.timebase.epoch == .unset⟩
  let judged := judgeStamp ch.set ch.status stamp
  let s := setStatus c judged.2 s
  match judged.1 with
  | .orderFault => raise .order [num 4 c] s
  | .suppressed | .uncounted => s
  | .qualified => arrive ⟨c, label, stamp, marks⟩ s

/-- An edge handed to channel `c` by the Capture Map (R20, R34): a disabled channel discards it. -/
def channelEdge (c : Fin 16) (sense : Sense) (coarse16 : BitVec 16) (fine : Fin 256) (lost : Bool)
    (s : State) : State :=
  let ch := s.channels.get c
  if ch.set.enable then
    let label := ch.set.label sense
    let entered := setStatus c (ch.status.enter label lost) s
    if ch.set.sense.passes label then
      stampEdge c label coarse16 fine lost s (calibrationTap c fine entered)
    else entered
  else s

/-! ## EDGE_CELL (R17 to R21) -/

/-- The index of a slice's lane in the Capture Map (R18). -/
def mapIndex (slice : Fin 32) (lane : Fin 4) : Fin 128 := ⟨slice.val * 4 + lane.val, by omega⟩

/-- The entry that acts on an EDGE cell: PASS in BYPASS (R21). -/
def captureEntry (s : State) (slice : Fin 32) (lane : Fin 4) : MapEntry :=
  if s.node.state = .bypass then { action := .pass, channel := 0 }
  else s.map.get (mapIndex slice lane)

/-- EDGE_CELL (R17, R19): PASS relays the cell, TAKE frees its slot and hands the edge to the entry's
channel, COPY relays the cell and hands the edge on. -/
def execEdgeCell (c : Cell) (slice : Fin 32) (lane : Fin 4) (sense : Sense) (coarse16 : BitVec 16)
    (fine : Fin 256) (lost : Bool) (s : State) : Host.Outcome State Fault Refusal :=
  .next
    (receive
      (fun s =>
        let e := captureEntry s slice lane
        match e.action with
        | .pass => pushSlot (.relay c) s
        | .take => channelEdge e.channel sense coarse16 fine lost (pushSlot .free s)
        | .copy => channelEdge e.channel sense coarse16 fine lost (pushSlot (.relay c) s)) s)

/-! ## CHAN-WRITE and CHAN-READ (R44 to R47) -/

/-- The field's code, its place in Table 3-1 (R161). -/
def chanFieldCode : ChanArg → Nat
  | .enable _ => 0
  | .sense _ => 1
  | .invert _ => 2
  | .table _ => 3
  | .deskew _ => 4
  | .holdoff _ => 5
  | .prescale _ => 6
  | .stream _ => 7
  | .other c => c

/-- The value that the settings hold in the field a CHAN-WRITE names. -/
def ChanSettings.fieldValue (g : ChanSettings) : ChanArg → List Field
  | .enable _ => [bit g.enable]
  | .sense _ => [num 2 g.sense.code]
  | .invert _ => [bit g.invert]
  | .table _ => [num 3 g.table]
  | .deskew _ => [num 21 g.deskew.toNat]
  | .holdoff _ => [num 16 g.holdoff.toNat]
  | .prescale _ => [num 17 g.prescale]
  | .stream _ => [bit g.stream]
  | .other _ => []

/-- A channel with one field written, and the effect of the write on its status record (R44, R45);
`none` where the value is out of range or the field names none. -/
def Channel.write (x : Channel) : ChanArg → Option Channel
  | .enable v => (flagOf v).map fun b =>
      { set := { x.set with enable := b }
        status := if b && !x.set.enable then { x.status with level := .unknown } else x.status }
  | .sense v => (chanSenseOf v).map fun k => { x with set := { x.set with sense := k } }
  | .invert v => (flagOf v).map fun b =>
      { set := { x.set with invert := b }
        status := if b != x.set.invert then { x.status with level := .unknown } else x.status }
  | .table v => (inRange 8 v).map fun t => { x with set := { x.set with table := t } }
  | .deskew v =>
    if -1048576 ≤ v ∧ v ≤ 1048575 then
      some { x with set := { x.set with deskew := BitVec.ofInt 21 v } }
    else none
  | .holdoff v =>
    if v ≤ 65535 then some { x with set := { x.set with holdoff := BitVec.ofNat 16 v } } else none
  | .prescale v =>
    if between 1 65536 v then
      some { set := { x.set with prescale := v }, status := { x.status with phase := 0 } }
    else none
  | .stream v => (flagOf v).map fun b => { x with set := { x.set with stream := b } }
  | .other _ => none

/-- Whether a CHAN-WRITE writes the stream field, which is never refused IN_USE (R44). -/
def writesStream : ChanArg → Bool
  | .stream _ => true
  | _ => false

/-- CHAN-WRITE's own rule (R44, R45). The reply carries the channel, the field and the value held. -/
def chanWrite (channel : Nat) (arg : ChanArg) (s : State) : Answer :=
  let head := [num 4 channel, num 3 (chanFieldCode arg)]
  match inRange 16 channel with
  | none => .still s .range head
  | some c =>
    let x := s.channels.get c
    match x.write arg with
    | none => .still s .range (head ++ x.set.fieldValue arg)
    | some y =>
      if !writesStream arg && inUse s c then .still s .inUse (head ++ x.set.fieldValue arg)
      else ⟨s.setChannel c y, .done, head ++ y.set.fieldValue arg⟩

/-- CHAN-WRITE (R44, R45). -/
def execChanWrite (c : Cell) (channel : Nat) (arg : ChanArg) (s : State) :
    Host.Outcome State Fault Refusal :=
  .next (takeCommand 8 c (fun _ s => chanWrite channel arg s) s)

/-- A CHAN-READ item of a channel (Table 3-3): its contents, and the channel after the read. -/
def Channel.read (x : Channel) : ChanItem → Option (List Field × Channel)
  | .setup =>
    some ([bit x.set.enable, num 2 x.set.sense.code, bit x.set.invert, num 3 x.set.table,
      bit x.set.stream, num 16 x.set.holdoff.toNat], x)
  | .scale => some ([num 21 x.set.deskew.toNat, num 17 x.set.prescale], x)
  | .state =>
    some ([num 2 x.status.level.code, num 16 x.status.phase, bit x.status.sourceGap,
      bit x.status.last.isSome], { x with status := { x.status with sourceGap := false } })
  | .counts =>
    some ([num 16 x.status.suppressed, num 16 x.status.orderFaults],
      { x with status := { x.status with suppressed := 0, orderFaults := 0 } })
  | .last => some (optional 47 (x.status.last.map fun l => (coarsePart l).toNat), x)
  | .lastFine =>
    some
      (match x.status.last with
        | some l =>
          [bit true, num 12 (fraction l).toNat, num 16 ((coarsePart l).setWidth 16).toNat]
        | none => [bit false, num 12 0, num 16 0], x)
  | .other _ => none

/-- CHAN-READ's own rule (R46). -/
def chanRead (channel : Nat) (item : ChanItem) (s : State) : Answer :=
  match inRange 16 channel with
  | none => .still s .range
  | some c =>
    match (s.channels.get c).read item with
    | none => .still s .range
    | some (fs, y) => ⟨s.setChannel c y, .done, fs⟩

/-- CHAN-READ (R46). -/
def execChanRead (c : Cell) (channel : Nat) (item : ChanItem) (s : State) :
    Host.Outcome State Fault Refusal :=
  .next (takeCommand 9 c (fun _ s => chanRead channel item s) s)

end Sys2Proof.Machine
end

