-- ==== Sys2Proof/Machine/Clock.lean ====
section
/-!
DEFINITION. The Timebase (chapter 1): the advance of the count at the end of a coarse period with all
that falls there, EPOCH cells and the step actions, and TIME-SET.
-/

namespace Sys2Proof.Machine

/-! ## The end of a coarse period (R1, R13, R55, R66, R146) -/

/-- The part's own counts of coarse periods advance by one, but for marker time: the timebase count, the
periods of table updates and the elapsed time of an active calibration run (R1, R55, R66). -/
def advanceCounts (s : State) : State :=
  { s with
    timebase := { s.timebase with count := s.timebase.count + 1 }
    tables := s.tables.map Table.countPeriod
    cal := { s.cal with elapsed := if s.cal.active then s.cal.elapsed + 1 else s.cal.elapsed } }

/-- An event that an own count makes due at the end of a period: the end of a table's update, or the
calibration's time limit. -/
inductive PeriodEvent where
  | updateEnd (t : Fin 8)
  | calTimeout
  deriving DecidableEq, Repr

/-- The tables, in ascending number. -/
def allTables : List (Fin 8) := List.finRange 8

/-- The markers, in ascending number. -/
def allMarkers : List (Fin 4) := List.finRange 4

/-- The events due at the end of a period, once the counts have advanced (R55, R66). -/
def periodEvents (s : State) : List PeriodEvent :=
  (allTables.filter fun t => ((s.tables.get t).updateDone Config.updatePeriods).isSome).map
      .updateEnd ++
    (if s.cal.active && decide (s.cal.limit ≤ s.cal.elapsed) then [.calTimeout] else [])

/-- One such event is taken. -/
def takePeriodEvent (e : PeriodEvent) (s : State) : State :=
  match e with
  | .updateEnd t =>
    match (s.tables.get t).updateDone Config.updatePeriods with
    | some m => endUpdate t m s
    | none => s
  | .calTimeout => expireCalibration s

/-- The due events are taken one after another; where several fall together a free choice gives the
order, which the spec leaves open (R74, R61). -/
def takePeriodEvents : Nat → List PeriodEvent → State → State
  | 0, _, s => s
  | fuel + 1, es, s =>
    match choose s.choices es with
    | none => s
    | some (e, others, n) => takePeriodEvents fuel others (takePeriodEvent e { s with choices := n })

/-- The markers at the end of a coarse period: the hold expiries and pulse ends of the period's marker
time that no row took are taken, the pins show the levels the period left, and marker time goes on
(R146, R147, R152). -/
def endMarkerPeriod (s : State) : State :=
  let s := showPins (allMarkers.foldl settleMarker s)
  { s with markerTime := s.markerTime + 1 }

/-- All that falls at the end of a coarse period. The counts advance; the TIMEBASE markers re-form their
requests (R150); the frontier advances by one period and the Ordering Queue releases (R81); the ends of
updates and the calibration's limit follow. All of it falls at the marker time of the period that ends,
so the pins show it at once (R147, R153); last of all that marker time ends (DEDUCED, log entries 12
and 27). -/
def endPeriod (s : State) : State :=
  let s := refreshTimebaseMarkers (advanceCounts s)
  let s := frontierAdvance s.timebase.frontier s
  let due := periodEvents s
  endMarkerPeriod (takePeriodEvents due.length due s)

/-- TIMEBASE_ADVANCE (R1): the end of a coarse period. While RESETn is low nothing advances (R16). -/
def execTimebaseAdvance (s : State) : Host.Outcome State Fault Refusal :=
  .next (if s.held then s else endPeriod s)

/-! ## EPOCH cells (R7 to R11) -/

/-- The step reaches a channel: its last accepted stamp becomes absent and its phase 0 (R11, R33). -/
def Channel.epochStep (x : Channel) : Channel :=
  { x with status := { x.status with last := none, phase := 0 } }

/-- Every slot that is not IDLE ends with an EPOCH-STEP result, in ascending number (R112). -/
def endSlotsOnStep (s : State) : State :=
  allSlots.foldl (fun s i => applySlot i ((s.slots.get i).epochEnd i) s) s

/-- The step actions (R11), the count being already the new one. -/
def stepActions (s : State) : State :=
  let s := discardQueue s.timebase.frontier (endSlotsOnStep s)
  refreshTimebaseMarkers { s with channels := s.channels.map Channel.epochStep }

/-- A signed difference saturated to the last offset's range (R10). -/
def saturateOffset (d : Int) : Int := Max.max (-32768) (Min.min 32767 d)

/-- The target of an EPOCH cell (R7). -/
def Timebase.target (t : Timebase) (e : Coarse) : Coarse := e + t.trim.setWidth 47

/-- The Timebase takes an EPOCH cell (R8, R9). -/
def takeEpoch (e : Coarse) (s : State) : State :=
  let t := s.timebase
  let target := t.target e
  let d := coarseDiff target t.count
  match t.epoch with
  | .unset =>
    raise .epoch [num 1 0]
      (stepActions
        { s with
          timebase := { t with count := target, epoch := .set, outcome := .loaded, offset := 0 } })
  | .set =>
    if -1 ≤ d ∧ d ≤ 1 then
      { s with timebase := { t with outcome := .confirm, offset := d } }
    else
      raise .epoch [num 1 1]
        (stepActions
          { s with
            timebase := { t with count := target, outcome := .step, offset := saturateOffset d } })

/-- EPOCH_CELL (R7): relayed in its own slot and taken by the Timebase, in every node state. -/
def execEpochCell (c : Cell) (e : Coarse) (s : State) : Host.Outcome State Fault Refusal :=
  .next (receive (fun s => takeEpoch e (pushSlot (.relay c) s)) s)

/-! ## TIME-SET (R14, R15) -/

/-- The timebase report (R14). -/
def Timebase.report (t : Timebase) : List Field :=
  [num 16 t.horizon, num 10 t.trim.toNat, num 1 t.epoch.code, num 2 t.outcome.code,
   signed 16 t.offset]

/-- H changes (R15): where it becomes smaller, the move of the frontier is one frontier advance. -/
def changeHorizon (n : Nat) (s : State) : State :=
  let s' := { s with timebase := { s.timebase with horizon := n } }
  if n < s.timebase.horizon then frontierAdvance s'.timebase.frontier s' else s'

/-- TIME-SET HORIZON's own rule (R14). -/
def setHorizon (n : Nat) (s : State) : Answer :=
  if !between 256 65535 n then .still s .range s.timebase.report
  else if s.slots.cells.any (·.state != .idle) then .still s .inUse s.timebase.report
  else
    let s' := changeHorizon n s
    ⟨s', .done, s'.timebase.report⟩

/-- TIME-SET HORIZON (R14, R15). -/
def execTimeSetHorizon (c : Cell) (n : Nat) (s : State) : Host.Outcome State Fault Refusal :=
  .next (takeCommand 7 c (fun _ s => setHorizon n s) s)

/-- TIME-SET TRIM's own rule (R14). -/
def setTrim (n : Nat) (s : State) : Answer :=
  if n ≤ 1023 then
    let t := { s.timebase with trim := BitVec.ofNat 10 n }
    ⟨{ s with timebase := t }, .done, t.report⟩
  else .still s .range s.timebase.report

/-- TIME-SET TRIM (R14). -/
def execTimeSetTrim (c : Cell) (n : Nat) (s : State) : Host.Outcome State Fault Refusal :=
  .next (takeCommand 7 c (fun _ s => setTrim n s) s)

/-- TIME-SET REPORT (R14): no change. -/
def execTimeSetReport (c : Cell) (s : State) : Host.Outcome State Fault Refusal :=
  .next (takeCommand 7 c (fun _ s => .still s .done s.timebase.report) s)

/-- TIME-SET COUNT (R14): no change; the reply carries the count as it stands. -/
def execTimeSetCount (c : Cell) (s : State) : Host.Outcome State Fault Refusal :=
  .next (takeCommand 7 c (fun _ s => .still s .done [num 47 s.timebase.count.toNat]) s)

end Sys2Proof.Machine
end

