-- ==== Sys2Proof/Machine/Link.lean ====
section
/-!
DEFINITION. The ring link (chapter 11): the alignment of the Ring Receiver, the transmit slots, and the
Insertion Arbiter. The rows of cells that a block takes stand with their blocks.
-/

namespace Sys2Proof.Machine

/-! ## The receiver (R156, R157) -/

/-- A good FILL cell at the fixed alignment in CONFIRMING (R156). -/
def confirmFill (s : State) : State :=
  let run := s.link.goodRun + 1
  if Config.runToChange ≤ run then
    raise .link [num 1 0]
      { s with link := { s.link with goodRun := run, align := .locked, badRun := 0 } }
  else { s with link := { s.link with goodRun := run } }

/-- A bad cell in LOCKED (R156, R157, R158): a link error, a longer bad-cell run, a free slot, and at
the fourth in a row HUNT with LINK LOST. -/
def badInLocked (s : State) : State :=
  let run := s.link.badRun + 1
  let link :=
    { s.link with errors := countUp Config.maxCount16 s.link.errors, badRun := run }
  let s := pushSlot .free { s with link := link }
  if Config.runToChange ≤ run then raise .link [num 1 1] (toHunt s) else s

/-- HUNT_CELL_START (R156): a CELL-START found in HUNT, with the 20 groups that follow it. -/
def execHuntCellStart (groups : List Group) (s : State) : Host.Outcome State Fault Refusal :=
  .next
    (if !s.held && s.link.align == .hunt && judgeGroups groups == .fill then
      { s with link := { s.link with align := .confirming, goodRun := 0 } }
     else s)

/-- CONFIRMING_FILL_CELL (R156). -/
def execConfirmingFillCell (s : State) : Host.Outcome State Fault Refusal :=
  .next (if !s.held && s.link.align == .confirming then confirmFill s else s)

/-- CONFIRMING_OTHER_CELL (R156). -/
def execConfirmingOtherCell (s : State) : Host.Outcome State Fault Refusal :=
  .next (if !s.held && s.link.align == .confirming then toHunt s else s)

/-- LINK_SILENT_CELL_TIME (R156): a bad cell in LOCKED, a cell other than a good FILL cell in
CONFIRMING. -/
def execLinkSilentCellTime (s : State) : Host.Outcome State Fault Refusal :=
  .next
    (if s.held then s
     else
      match s.link.align with
      | .hunt => s
      | .confirming => toHunt s
      | .locked => badInLocked s)

/-- FILL_CELL (R156, R158): in LOCKED its slot is free; in CONFIRMING it is a confirming cell. -/
def execFillCell (s : State) : Host.Outcome State Fault Refusal :=
  .next
    (if s.held then s
     else
      match s.link.align with
      | .hunt => s
      | .confirming => confirmFill s
      | .locked => pushSlot .free { s with link := { s.link with badRun := 0 } })

/-- BAD_CELL (R156, R157, R158). -/
def execBadCell (s : State) : Host.Outcome State Fault Refusal :=
  .next
    (if s.held then s
     else
      match s.link.align with
      | .hunt => s
      | .confirming => toHunt s
      | .locked => badInLocked s)

/-- RELAY_CELL (R158): a good cell that no block of the part takes travels on in its slot. -/
def execRelayCell (c : Cell) (s : State) : Host.Outcome State Fault Refusal :=
  .next (receive (pushSlot (.relay c)) s)

/-! ## The cells that the part forms (R160 to R163) -/

/-- A cell of the part's own: its kind code, its node address, and its payload (R160, R162). -/
def ownCell (kind : Nat) (n : Node) (payload : Nat) : Cell :=
  ⟨BitVec.ofNat 8 (kind * 16 + n.address), BitVec.ofNat 64 payload⟩

/-- The NOTICE cell of a kind with its latest detail (R162, R170). -/
def noticeCell (s : State) (k : AttnKind) : Cell :=
  ownCell 7 s.node (k.code.val * 2 ^ 56 + packInto 56 (s.command.attns.get k.code).detail)

/-- The bits of a reply's result that one REPLY cell carries (R161). -/
def replyRoom : Nat := 48

/-- How many cells a reply takes: two where its packed result passes one (R161). -/
def Reply.cells (r : Reply) : Nat := if packedWidth r.fields ≤ replyRoom then 1 else 2

/-- Cell number `j` of a reply (R161, R162): the first carries the more mark where a second follows,
the second the continuation mark and the bits that follow. -/
def replyCell (n : Node) (r : Reply) (j : Nat) : Cell :=
  let two := r.cells == 2
  let head := packedValue [num 8 r.tag.toNat, bit (two && j == 0), bit (two && j == 1), num 2 0,
    num 4 r.code.code]
  let body :=
    if two then
      packInto (2 * replyRoom) r.fields / 2 ^ (replyRoom * (1 - j)) % 2 ^ replyRoom
    else packInto replyRoom r.fields
  ownCell 4 n (head * 2 ^ 48 + body)

/-- The cell numbered `sent` of a record of the Result Queue (R162, R163). -/
def recordCell (n : Node) (sent : Nat) : QueueRecord → Cell
  | .result r =>
    ownCell 5 n
      (segmentDescriptor r.slot sent (sent + 1 == r.body.cells) * 2 ^ 56 + r.segment sent)
  | .stamp channel sense m stamp =>
    ownCell 6 n
      (packedValue [num 4 channel, num 1 (senseCode sense), bit m.nominal, bit m.gap,
        bit m.unepoched] * 2 ^ 56 + stamp.toNat)
  | .gap count limit =>
    ownCell 5 n (segmentDescriptor 0 7 true * 2 ^ 56 + packInto 56 [num 16 count, bit limit])

/-! ## The Insertion Arbiter and the transmit link (R159, R160) -/

/-- A cell leaves on the transmit link. -/
def transmit (c : TxCell) (s : State) : State := { s with link := { s.link with out := c } }

/-- The oldest pending kind's notice is sent, and the kind leaves the set (R170). -/
def sendNotice (k : AttnKind) (s : State) : State :=
  transmit (.data (noticeCell s k))
    { s with command := { s.command with notices := s.command.notices.erase k } }

/-- The head reply's next cell is sent; the reply leaves with its last cell (R160, R166). -/
def sendReply (r : Reply) (others : List Reply) (s : State) : State :=
  let sent := s.command.repliesSent
  transmit (.data (replyCell s.node r sent))
    { s with
      command :=
        if r.cells ≤ sent + 1 then { s.command with replies := others, repliesSent := 0 }
        else { s.command with repliesSent := sent + 1 } }

/-- The head record's next cell is sent; the record leaves whole with its last cell (R141). -/
def sendRecord (r : QueueRecord) (others : List QueueRecord) (s : State) : State :=
  let sent := s.results.sent
  transmit (.data (recordCell s.node sent r))
    { s with
      results :=
        if r.size ≤ sent + 1 then { s.results with records := others, sent := 0 }
        else { s.results with sent := sent + 1 } }

/-- The Insertion Arbiter fills a free slot: a notice unless muted, a reply, a record cell, or FILL
(R160). -/
def fillFreeSlot (s : State) : State :=
  match s.command.mute, s.command.notices, s.command.replies, s.results.records with
  | false, k :: _, _, _ => sendNotice k s
  | _, _, r :: others, _ => sendReply r others s
  | _, _, _, r :: others => sendRecord r others s
  | _, _, _, _ => transmit .fill s

/-- TRANSMIT_SLOT_DUE (R159): the oldest slot of a received cell falls due; with none waiting, the
transmit link runs free in HUNT and CONFIRMING, and in LOCKED no slot is due. While RESETn is low it
sends FILL. -/
def execTransmitSlotDue (s : State) : Host.Outcome State Fault Refusal :=
  .next
    (if s.held then transmit .fill s
     else
      match s.link.slots with
      | .relay c :: others => transmit (.data c) { s with link := { s.link with slots := others } }
      | .free :: others => fillFreeSlot { s with link := { s.link with slots := others } }
      | [] => if s.link.align = .locked then s else fillFreeSlot s)

end Sys2Proof.Machine
end

