-- ==== Sys2Proof/Machine/Loads.lean ====
section
/-!
DEFINITION. Staged loads (12.5): the load buffer's commands, and the commits of the Capture Map
(R23 to R25), the Table Store (R53) and the Plan Table (R115).
-/

namespace Sys2Proof.Machine

/-! ## LOAD-OPEN, LOAD-DATA and LOAD-CANCEL (R173 to R175) -/

/-- The words of an entry of a load target (R173). -/
def LoadTarget.entryWords : LoadTarget → Nat
  | .lin _ => 1
  | .map => 1
  | .plan => 3

/-- The entries of a load target (R173). -/
def LoadTarget.extent : LoadTarget → Nat
  | .lin _ => 256
  | .map => 128
  | .plan => 64

/-- The Table Store's conditions on a LOAD-OPEN, for a LIN target (R57). -/
def targetForbidden (s : State) : LoadTarget → Bool
  | .lin t => loadForbidden s t
  | .map => false
  | .plan => false

/-- LOAD-OPEN's own rule (R173). -/
def loadOpen (target : LoadArg) (first count : Nat) (s : State) : Answer :=
  match loadTargetOf target with
  | none => .still s .range
  | some t =>
    if count = 0 ∨ t.extent < first + count ∨ Config.loadWords < count * t.entryWords then
      .still s .range
    else if s.command.load.phase ≠ .empty then .still s .busy
    else if targetForbidden s t then .still s .busy
    else
      let load : LoadBuffer :=
        { phase := .opened, target := t, first := first, count := count,
          expected := count * t.entryWords, words := [] }
      ⟨{ s with command := { s.command with load := load } }, .done, []⟩

/-- LOAD-OPEN (R173). -/
def execLoadOpen (c : Cell) (target : LoadArg) (first count : Nat) (s : State) :
    Host.Outcome State Fault Refusal :=
  .next (takeCommand 10 c (fun _ s => loadOpen target first count s) s)

/-- The load buffer with words appended (R174): those past the expected count are dropped, and the
buffer is FULL when that count is reached. -/
def LoadBuffer.take (l : LoadBuffer) (words : List Word16) : LoadBuffer :=
  let ws := l.words ++ words.take (l.expected - l.words.length)
  { l with words := ws, phase := if l.expected ≤ ws.length then .full else l.phase }

/-- LOAD-DATA's own rule (R174). -/
def loadData (words : List Word16) (s : State) : Answer :=
  let l := s.command.load
  if l.phase = .opened then
    let m := l.take words
    let taken := m.words.length - l.words.length
    ⟨{ s with command := { s.command with load := m } },
      if taken = words.length then .done else .range, [num 2 taken, num 7 m.words.length]⟩
  else .still s .sequence

/-- LOAD-DATA (R174). -/
def execLoadData (c : Cell) (words : List Word16) (s : State) :
    Host.Outcome State Fault Refusal :=
  .next (takeCommand 11 c (fun _ s => loadData words s) s)

/-- The load buffer emptied. -/
def emptyLoad (s : State) : State := { s with command := { s.command with load := .reset } }

/-- LOAD-CANCEL (R175). -/
def execLoadCancel (c : Cell) (s : State) : Host.Outcome State Fault Refusal :=
  .next
    (takeCommand 13 c
      (fun _ s => ⟨emptyLoad s, .done, [num 7 s.command.load.words.length]⟩) s)

/-! ## The commit of a MAP load (R23, R24, R25) -/

/-- The merged map: staged entries laid over the stored ones from `first` on (R23). -/
def mergedMap (first : Nat) (staged : List MapEntry) (stored : Bank MapEntry 128) :
    Bank MapEntry 128 :=
  .tabulate fun i =>
    if first ≤ i.val ∧ i.val < first + staged.length then
      staged.getD (i.val - first) (stored.get i)
    else stored.get i

/-- The channels, in ascending number. -/
def allChannels : List (Fin 16) := List.finRange 16

/-- The CONFLICT check fails: some channel is claimed by two or more entries (R24). -/
def mapConflict (m : Bank MapEntry 128) : Bool :=
  allChannels.any fun c => decide (2 ≤ m.cells.countP fun e => e.claims c)

/-- The channel that an entry collects for the IN_USE check is in use (R25). -/
def MapEntry.holdsInUse (s : State) (e : MapEntry) : Bool :=
  e.action != .pass && inUse s e.channel

/-- The IN_USE check fails: a changed entry's old or new channel is in use (R25). -/
def mapInUse (s : State) (m : Bank MapEntry 128) : Bool :=
  (List.finRange 128).any fun i =>
    let old := s.map.get i
    let new := m.get i
    old != new && (old.holdsInUse s || new.holdsInUse s)

/-- The Capture Map judges a commit (R23). -/
def commitMap (l : LoadBuffer) (s : State) : Answer :=
  let m := mergedMap l.first (l.words.map mapEntryOf) s.map
  if mapConflict m then .still s .conflict
  else if mapInUse s m then .still s .inUse
  else ⟨emptyLoad { s with map := m }, .done, []⟩

/-! ## The commit of a LIN load (R53, R54) -/

/-- The Table Store judges a commit (R53): SHAPE with the index of the failure, or ACCEPTED and the
update begins. -/
def commitTable (t : Fin 8) (l : LoadBuffer) (s : State) : Answer :=
  let merged := overlay l.first (l.words.map (·.toNat)) (s.tables.get t).entries
  match shapeFailure 0 0 merged with
  | some i => .still s .shape [num 8 i]
  | none => ⟨emptyLoad (beginUpdate t (entriesOf merged) s), .accepted, []⟩

/-! ## The commit of a PLAN load (R115) -/

/-- The staged steps from step number `i` on; `none` where R115 refuses one RANGE. -/
def stagedSteps : Nat → List Word16 → Option (List PlanStep)
  | i, w0 :: w1 :: w2 :: ws =>
    match planStepOf i w0 w1 w2, stagedSteps (i + 1) ws with
    | some p, some ps => some (p :: ps)
    | _, _ => none
  | _, _ => some []

/-- The steps reached from step `n` by following the stored actions for at most `fuel` steps, `n`
first (R115). Sixty-four steps reach every step that can be reached. -/
def reachable (plan : Bank PlanStep 64) : Nat → Fin 64 → List (Fin 64)
  | 0, _ => []
  | fuel + 1, n =>
    n ::
      (match (plan.get n).action with
        | .next => reachable plan fuel (n + 1)
        | .jump m => reachable plan fuel m
        | .last => [])

/-- The steps that a running slot's plan can still reach (R115). -/
def Slot.planReach (x : Slot) (plan : Bank PlanStep 64) : List (Fin 64) :=
  if x.state = .idle then []
  else
    match x.config.gate, x.run.planStep with
    | .plan _, some n => reachable plan 64 n
    | _, _ => []

/-- The Plan Table with staged steps laid over it from `first` on (R115). -/
def mergedPlan (first : Nat) (staged : List PlanStep) (stored : Bank PlanStep 64) :
    Bank PlanStep 64 :=
  .tabulate fun i =>
    if first ≤ i.val ∧ i.val < first + staged.length then
      staged.getD (i.val - first) (stored.get i)
    else stored.get i

/-- The IN_USE check of a PLAN commit fails: a staged step is reachable from the current step of a
running slot (R115). -/
def planInUse (s : State) (first count : Nat) : Bool :=
  s.slots.cells.any fun x =>
    (x.planReach s.plan).any fun n => decide (first ≤ n.val) && decide (n.val < first + count)

/-- The Plan Table judges a commit (R115). -/
def commitPlan (l : LoadBuffer) (s : State) : Answer :=
  match stagedSteps l.first l.words with
  | none => .still s .range
  | some ps =>
    if planInUse s l.first ps.length then .still s .inUse
    else ⟨emptyLoad { s with plan := mergedPlan l.first ps s.plan }, .done, []⟩

/-! ## LOAD-COMMIT (R175) -/

/-- LOAD-COMMIT's own rule (R175): the owner of the target judges a FULL buffer. -/
def loadCommit (s : State) : Answer :=
  let l := s.command.load
  if l.phase = .full then
    match l.target with
    | .map => commitMap l s
    | .lin t => commitTable t l s
    | .plan => commitPlan l s
  else .still s .sequence

/-- LOAD-COMMIT (R175). -/
def execLoadCommit (c : Cell) (s : State) : Host.Outcome State Fault Refusal :=
  .next (takeCommand 12 c (fun _ s => loadCommit s) s)

end Sys2Proof.Machine
end

