-- ==== Sys2Proof/Machine/Node.lean ====
section
/-!
DEFINITION. The node and the Command Unit's own commands (chapter 12): resets, NAME, MODE, IDENT,
STATUS, CLEAR, ATTN-SET, and a command code that names no command.
-/

namespace Sys2Proof.Machine

/-! ## Resets (R16, R177) -/

/-- POWER_ON_RESET (R177): every block is held at its power-on values, and the transmit link sends
FILL. The environment's queue of events and the model's count of free choices are not of the part. -/
def execPowerOnReset (s : State) : Host.Outcome State Fault Refusal :=
  .next { State.reset with pending := s.pending, choices := s.choices, held := true }

/-- RESET_RELEASE (R177): the count starts to advance and the receiver to hunt. -/
def execResetRelease (s : State) : Host.Outcome State Fault Refusal := .next { s with held := false }

/-- The part after a node reset (R177): the power-on values but for what is kept, and W at the frontier
of the kept count and horizon 8192 (R16, R86). `badRun` is the bad-cell run that the reset keeps. -/
def nodeReset (badRun : Nat) (s : State) : State :=
  let t := { s.timebase with horizon := Config.resetHorizon }
  { State.reset with
    pending := s.pending
    choices := s.choices
    held := s.held
    node := s.node
    link := { s.link with errors := 0, badRun := badRun }
    timebase := t
    queue := { entries := [], mark := t.frontier }
    markerTime := s.markerTime
    markers := s.markers.map (Marker.nodeReset s.markerTime) }

/-- NODE-RESET (R177). R156 has a good cell in LOCKED make the bad-cell run 0, but R156, R164 and R177 have a
node reset keep the run, so that a fourth bad cell behind it returns the receiver to HUNT. The model follows
R164: the cell of a NODE-RESET that is carried out leaves the run as it found it (DEDUCED, log entry 34). -/
def execNodeReset (c : Cell) (s : State) : Host.Outcome State Fault Refusal :=
  .next (takeCommand 3 c (fun _ t => ⟨nodeReset s.link.badRun t, .done, []⟩) s)

/-! ## NAME, MODE and IDENT (R167, R168) -/

/-- The node state and address, as the replies to NAME and MODE carry them (R167). -/
def Node.fields (n : Node) : List Field := [num 2 n.state.code, num 4 n.address]

/-- A new node record, answered DONE (R167). -/
def setNode (n : Node) (s : State) : Answer := ⟨{ s with node := n }, .done, n.fields⟩

/-- NAME's own rule (R167). -/
def nameNode (address : Nat) (broadcast : Bool) (s : State) : Answer :=
  if broadcast then .still s .state s.node.fields
  else if between 1 14 address then setNode { address := address, state := .active } s
  else .still s .range s.node.fields

/-- NAME (R167). -/
def execName (c : Cell) (address : Nat) (s : State) : Host.Outcome State Fault Refusal :=
  .next (takeCommand 0 c (fun b s => nameNode address b s) s)

/-- The node state that MODE asks for: ACTIVE 1 or BYPASS 2 (R167). -/
def modeOf : Nat → Option NodeState
  | 1 => some .active
  | 2 => some .bypass
  | _ => none

/-- MODE's own rule (R167). -/
def setMode (state : Nat) (s : State) : Answer :=
  match modeOf state with
  | none => .still s .range s.node.fields
  | some m =>
    if s.node.state = .unnamed then .still s .state s.node.fields
    else setNode { s.node with state := m } s

/-- MODE (R167). -/
def execMode (c : Cell) (state : Nat) (s : State) : Host.Outcome State Fault Refusal :=
  .next (takeCommand 1 c (fun _ s => setMode state s) s)

/-- An item of the capability record (R168), each number in the fewest bits that hold it. -/
def identFields : Nat → Option (List Field)
  | 0 => some [num 12 Config.familyCode, num 1 Config.revision]
  | 1 => some [num 5 16, num 4 8, num 4 8, num 7 64]
  | 2 => some [num 9 Config.queueEntries, num 10 Config.resultCells, num 8 128]
  | _ => none

/-- IDENT (R168). -/
def execIdent (c : Cell) (item : Nat) (s : State) : Host.Outcome State Fault Refusal :=
  .next
    (takeCommand 2 c
      (fun _ s =>
        match identFields item with
        | some fs => .still s .done fs
        | none => .still s .range) s)

/-! ## STATUS (R171) -/

/-- The twelve flags, LINK first. -/
def flagBits (u : CommandUnit) : List Field := u.attns.cells.map fun a => bit a.flag

/-- The twelve enables, LINK first. -/
def enableBits (u : CommandUnit) : List Field := u.attns.cells.map fun a => bit a.enable

/-- The twelve notice bits, LINK first. -/
def noticeBits (u : CommandUnit) : List Field := u.attns.cells.map fun a => bit a.notice

/-- The contents of a STATUS item (R171). Of LOAD, R161 does not say whether the widths of the first
index and the count follow the target: here they are the 8 and 7 bits of the widest target for every
target (DEDUCED, log entry 9). -/
def statusFields (s : State) : StatusItem → Option (List Field)
  | .flags =>
    some (flagBits s.command ++ enableBits s.command ++ noticeBits s.command ++ [bit s.command.mute])
  | .node =>
    some
      (s.node.fields ++ [num 2 s.link.align.code, num 16 s.link.errors] ++
        s.markers.cells.map fun m => num 1 m.pin.code)
  | .queue =>
    some [num 10 s.results.occupancy, num 16 s.results.gaps, bit s.results.gapLimit,
      num 10 s.results.threshold]
  | .load =>
    let l := s.command.load
    some [num 2 l.phase.code, num 4 l.target.code, num 8 l.first, num 7 l.count,
      num 7 l.words.length]
  | .tables => some (s.tables.cells.map fun t => num 2 t.phase.code)
  | .other _ => none

/-- STATUS (R171): no change. -/
def execStatus (c : Cell) (item : StatusItem) (s : State) : Host.Outcome State Fault Refusal :=
  .next
    (takeCommand 4 c
      (fun _ s =>
        match statusFields s item with
        | some fs => .still s .done fs
        | none => .still s .range) s)

/-! ## CLEAR and ATTN-SET (R172) -/

/-- Whether a mask names a kind: LINK, the first kind, is its most significant bit (R161). -/
def names (mask : BitVec 12) (k : Fin 12) : Bool := mask.getMsbD k.val

/-- The Command Unit after a CLEAR of the kinds in the mask (R172). -/
def CommandUnit.clear (u : CommandUnit) (kinds : BitVec 12) : CommandUnit :=
  { u with
    attns := .tabulate fun k =>
      let a := u.attns.get k
      if names kinds k then { a with flag := false } else a
    notices := u.notices.filter fun k => !names kinds k.code }

/-- CLEAR's own rule (R172): the reply carries the flags and the link error count as they stood. -/
def clearAttentions (kinds : BitVec 12) (linkErrors : Bool) (s : State) : Answer :=
  ⟨{ s with
      command := s.command.clear kinds
      link := { s.link with errors := if linkErrors then 0 else s.link.errors } }, .done,
    flagBits s.command ++ [num 16 s.link.errors]⟩

/-- CLEAR (R172). -/
def execClear (c : Cell) (kinds : BitVec 12) (linkErrors : Bool) (s : State) :
    Host.Outcome State Fault Refusal :=
  .next (takeCommand 5 c (fun _ s => clearAttentions kinds linkErrors s) s)

/-- The Command Unit with new enables, notice bits and mute (R172): a kind whose notice bit is now off
leaves the pending-notice set. -/
def CommandUnit.setMasks (u : CommandUnit) (enables notices : BitVec 12) (mute : Bool) :
    CommandUnit :=
  { u with
    attns := .tabulate fun k =>
      { u.attns.get k with enable := names enables k, notice := names notices k }
    notices := u.notices.filter fun k => names notices k.code
    mute := mute }

/-- ATTN-SET's own rule (R172): the reply carries the masks and mute as they stand after it. -/
def setAttentions (enables notices : BitVec 12) (mute : Bool) (s : State) : Answer :=
  let u := s.command.setMasks enables notices mute
  ⟨{ s with command := u }, .done, enableBits u ++ noticeBits u ++ [bit u.mute]⟩

/-- ATTN-SET (R172). -/
def execAttnSet (c : Cell) (enables notices : BitVec 12) (mute : Bool) (s : State) :
    Host.Outcome State Fault Refusal :=
  .next (takeCommand 6 c (fun _ s => setAttentions enables notices mute s) s)

/-! ## A code that names no command (R165) -/

/-- UNKNOWN_COMMAND (R165): answered UNKNOWN; it counts as a command taken for R176. -/
def execUnknownCommand (c : Cell) (code : Nat) (s : State) : Host.Outcome State Fault Refusal :=
  .next (takeCommand code c (fun _ s => .still s .unknown) s)

end Sys2Proof.Machine
end

