-- ==== Sys2Proof/Machine/SlotCommands.lean ====
section
/-!
DEFINITION. The slot commands SLOT-SET, SLOT-GET, ARM, ARM-AT, STOP, HOLD and RESUME (chapter 7), and
the rows for a boundary that W reaches.
-/

namespace Sys2Proof.Machine

/-! ## SLOT-SET and SLOT-GET (R89, R90) -/

/-- The configuration with one field written, where the value is in range (R89, Table 7-1). -/
def SlotConfig.write (g : SlotConfig) : SlotArg → Option SlotConfig
  | .kind c => (kindOf c).map fun v => { g with kind := v }
  | .endpointA c se => (endpointOf c se).map fun v => { g with endpointA := v }
  | .endpointB false _ _ => some { g with endpointB := none }
  | .endpointB true c se => (endpointOf c se).map fun v => { g with endpointB := some v }
  | .armSource a => (armSourceOf a).map fun v => { g with armSource := v }
  | .gateMode a => (gateModeOf a).map fun v => { g with gate := v }
  | .gateLength v => if between 1 (2 ^ 40) v then some { g with length := v } else none
  | .repeats v => if between 0 65535 v then some { g with repeats := v } else none
  | .samples v => if between 1 65535 v then some { g with samples := v } else none
  | .restart c => (restartOf c).map fun v => { g with restart := v }
  | .sharedEdge v => (flagOf v).map fun v => { g with shared := v }
  | .closeTimeout v => if between 1 (2 ^ 32 - 1) v then some { g with timeout := v } else none
  | .report v => (flagOf v).map fun v => { g with report := v }
  | .other _ => none

/-- The field's code, its place in Table 7-1 (R161). -/
def slotFieldCode : SlotArg → Nat
  | .kind _ => 0
  | .endpointA _ _ => 1
  | .endpointB _ _ _ => 2
  | .armSource _ => 3
  | .gateMode _ => 4
  | .gateLength _ => 5
  | .repeats _ => 6
  | .samples _ => 7
  | .restart _ => 8
  | .sharedEdge _ => 9
  | .closeTimeout _ => 10
  | .report _ => 11
  | .other c => c

/-- The value a configuration holds in the field that a SLOT-SET names; a code that names no field has
no value. -/
def SlotConfig.fieldValue (g : SlotConfig) : SlotArg → List Field
  | .kind _ => [num 2 g.kind.code]
  | .endpointA _ _ => g.endpointA.fields
  | .endpointB _ _ _ => optionalEndpoint g.endpointB
  | .armSource _ => g.armSource.fields
  | .gateMode _ => g.gate.fields
  | .gateLength _ => [num 41 g.length]
  | .repeats _ => [num 16 g.repeats]
  | .samples _ => [num 16 g.samples]
  | .restart _ => [num 1 g.restart.code]
  | .sharedEdge _ => [bit g.shared]
  | .closeTimeout _ => [num 32 g.timeout]
  | .report _ => [bit g.report]
  | .other _ => []

/-- SLOT-SET's own rule (R89). The reply carries the slot, the field and the value it holds. -/
def slotSet (slot : Nat) (arg : SlotArg) (s : State) : Answer :=
  let head := [num 3 slot, num 4 (slotFieldCode arg)]
  match inRange 8 slot with
  | none => .still s .range head
  | some i =>
    let x := s.slots.get i
    match x.config.write arg with
    | none => .still s .range (head ++ x.config.fieldValue arg)
    | some g =>
      if x.state = .idle then
        ⟨s.setSlot i { x with config := g }, .done, head ++ g.fieldValue arg⟩
      else .still s .state (head ++ x.config.fieldValue arg)

/-- SLOT-SET (R89). -/
def execSlotSet (c : Cell) (slot : Nat) (arg : SlotArg) (s : State) :
    Host.Outcome State Fault Refusal :=
  .next (takeCommand 17 c (fun _ s => slotSet slot arg s) s)

/-- The reply to SLOT-GET RESULT: the segment descriptor, its bit 0 set where the segment is absent,
and the segment's seven content bytes (R131, R161). -/
def resultFields (x : Slot) (i : Fin 8) (seg : Nat) : List Field :=
  match x.retained with
  | some r =>
    if seg < r.body.cells then
      [num 8 (segmentDescriptor i seg (seg + 1 == r.body.cells)), num 56 (r.segment seg)]
    else [num 8 (segmentDescriptor i seg false + 1), num 56 0]
  | none => [num 8 (segmentDescriptor i seg false + 1), num 56 0]

/-- The contents of a SLOT-GET item (R90, R161); `none` where the item names none. The current plan
step is absent where the slot is IDLE or its gate mode is not PLAN. R90 does not say what STATE reports
of an IDLE slot's run: here the gate index that the last run left (R126) and every run flag clear
(R91; DEDUCED, log entry 32). -/
def slotItemFields (x : Slot) (i : Fin 8) : SlotItem → Option (List Field)
  | .setup =>
    some ([num 2 x.config.kind.code] ++ x.config.endpointA.fields ++
      optionalEndpoint x.config.endpointB ++ x.config.armSource.fields)
  | .gating => some (x.config.gate.fields ++ [num 41 x.config.length])
  | .counts =>
    some [num 16 x.config.repeats, num 16 x.config.samples, num 1 x.config.restart.code,
      bit x.config.shared, num 32 x.config.timeout, bit x.config.report]
  | .state =>
    some ([num 4 x.state.code, num 32 x.run.gateIndex, num 16 x.seq.toNat] ++ x.run.flags.fields ++
      optional 6 (if x.state = .idle then none else x.run.planStep.map (·.val)))
  | .result seg => if seg ≤ 6 then some (resultFields x i seg) else none
  | .other _ => none

/-- SLOT-GET (R90): no effect on the slot. -/
def execSlotGet (c : Cell) (slot : Nat) (item : SlotItem) (s : State) :
    Host.Outcome State Fault Refusal :=
  .next
    (takeCommand 18 c
      (fun _ s =>
        match inRange 8 slot with
        | none => .still s .range
        | some i =>
          match slotItemFields (s.slots.get i) i item with
          | none => .still s .range
          | some fs => .still s .done fs) s)

/-! ## ARM and ARM-AT (R94, R95) -/

/-- A run begins in slot `i`, with P and the gate channel's level read from the channels as they stand
(R94, R98). -/
def startRun (s : State) (i : Fin 8) : Slot :=
  let x := s.slots.get i
  let level :=
    match x.config.gate with
    | .external g _ => (s.channels.get g).status.level
    | _ => .unknown
  x.beginRun (s.channels.get x.config.endpointA.channel).set.prescale level

/-- The state checks that ARM and ARM-AT share: the slot is IDLE, and an INTERVAL slot has an endpoint
B (R94, R95). -/
def Slot.canArm (x : Slot) : Bool :=
  x.state == .idle && !(x.config.kind == .interval && x.config.endpointB.isNone)

/-- ARM's own rule (R94). -/
def armSlot (slot : Nat) (s : State) : Answer :=
  match inRange 8 slot with
  | none => .still s .range
  | some i =>
    let x := s.slots.get i
    if !x.canArm || x.config.armSource == .atTime then .still s .state
    else
      let y := startRun s i
      let y :=
        match x.config.armSource with
        | .armEdge _ => y.withRun fun r => { r with armWait := true }
        | _ => y.withRun fun r => { r with armAt := some (roundUp s.queue.mark) }
      -- a boundary set at or before W is taken at once: one event with the command (R92, R149)
      let out : SlotOut :=
        if y.run.armAt = some s.queue.mark then
          (y.reachArmTime s.plan s.queue.mark, [])
        else (y, [])
      ⟨slotEvent i out s, .done, []⟩

/-- ARM (R94). -/
def execArm (c : Cell) (slot : Nat) (s : State) : Host.Outcome State Fault Refusal :=
  .next (takeCommand 19 c (fun _ s => armSlot slot s) s)

/-- ARM-AT's own rule (R95). -/
def armSlotAt (slot time : Nat) (s : State) : Answer :=
  match inRange 8 slot with
  | none => .still s .range
  | some i =>
    if 2 ^ 47 ≤ time then .still s .range
    else
      let x := s.slots.get i
      if !x.canArm then .still s .state
      else if notLater (stampOfPeriods time) s.queue.mark then .still s .tooLate
      else
        let y := (startRun s i).withRun fun r => { r with armAt := some (stampOfPeriods time) }
        ⟨slotEvent i (y, []) s, .done, []⟩

/-- ARM-AT (R95). -/
def execArmAt (c : Cell) (slot time : Nat) (s : State) : Host.Outcome State Fault Refusal :=
  .next (takeCommand 20 c (fun _ s => armSlotAt slot time s) s)

/-! ## STOP, HOLD and RESUME (R108, R111) -/

/-- STOP's own rule (R111). A RATE closing boundary that STOP sets at W is taken at once, in the same
event (R92). -/
def stopSlot (slot : Nat) (s : State) : Answer :=
  match inRange 8 slot with
  | none => .still s .range
  | some i =>
    match (s.slots.get i).stop i s.queue.mark with
    | none => .still s .state
    | some out =>
      let out :=
        if out.1.state = .rateCounting ∧ out.1.run.tClose = some s.queue.mark then
          out.1.closeGate i s.queue.mark
        else out
      ⟨slotEvent i out s, .done, []⟩

/-- STOP (R111). -/
def execStop (c : Cell) (slot : Nat) (s : State) : Host.Outcome State Fault Refusal :=
  .next (takeCommand 21 c (fun _ s => stopSlot slot s) s)

/-- HOLD and RESUME: a TOTAL slot goes from one state to the other (R108). -/
def moveTotal (before after : SlotState) (slot : Nat) (s : State) : Answer :=
  match inRange 8 slot with
  | none => .still s .range
  | some i =>
    let x := s.slots.get i
    if x.config.kind ≠ .total then .still s .wrongKind
    else if x.state ≠ before then .still s .state
    else ⟨applySlot i ({ x with state := after }, []) s, .done, []⟩

/-- HOLD (R108). -/
def execHold (c : Cell) (slot : Nat) (s : State) : Host.Outcome State Fault Refusal :=
  .next (takeCommand 22 c (fun _ s => moveTotal .totalCounting .held slot s) s)

/-- RESUME (R108). -/
def execResume (c : Cell) (slot : Nat) (s : State) : Host.Outcome State Fault Refusal :=
  .next (takeCommand 23 c (fun _ s => moveTotal .held .totalCounting slot s) s)

/-! ## Boundaries that W reaches (R92) -/

/-- Slot `i` takes the boundary of kind `k` where it is the next that W has reached; where W has not
reached it there is nothing to take. (The steps that move W take the boundaries they reach.) -/
def reachBoundary (k : Boundary) (i : Fin 8) (s : State) : State :=
  match ((s.slots.get i).due s.queue.mark).filter fun b => b.1 == k with
  | b :: _ => if s.held then s else takeSlotBoundary i b s
  | [] => s

/-- ARM_POINT_REACHED (R95). -/
def execArmPointReached (slot : Fin 8) (s : State) : Host.Outcome State Fault Refusal :=
  .next (reachBoundary .armTime slot s)

/-- GATE_CLOSE_REACHED (R92). -/
def execGateCloseReached (slot : Fin 8) (s : State) : Host.Outcome State Fault Refusal :=
  .next (reachBoundary .gateClose slot s)

/-- CLOSE_TIMEOUT_EXPIRY (R104). -/
def execCloseTimeoutExpiry (slot : Fin 8) (s : State) : Host.Outcome State Fault Refusal :=
  .next (reachBoundary .closeTimeout slot s)

/-- PLAN_STEP_END (R99). -/
def execPlanStepEnd (slot : Fin 8) (s : State) : Host.Outcome State Fault Refusal :=
  .next (reachBoundary .stepEnd slot s)

end Sys2Proof.Machine
end

