-- ==== Sys2Proof/Machine/Dispatch.lean ====
section
/-! DEFINITION. The dispatch: each row of the operation table to its meaning. -/

namespace Sys2Proof.Machine

def exec (i : Instr) (s : State) : Host.Outcome State Fault Refusal :=
  match i with
  | .powerOnReset => Sys2Proof.Machine.execPowerOnReset s
  | .resetRelease => Sys2Proof.Machine.execResetRelease s
  | .timebaseAdvance => Sys2Proof.Machine.execTimebaseAdvance s
  | .huntCellStart groups => Sys2Proof.Machine.execHuntCellStart groups s
  | .confirmingFillCell => Sys2Proof.Machine.execConfirmingFillCell s
  | .confirmingOtherCell => Sys2Proof.Machine.execConfirmingOtherCell s
  | .linkSilentCellTime => Sys2Proof.Machine.execLinkSilentCellTime s
  | .fillCell => Sys2Proof.Machine.execFillCell s
  | .badCell => Sys2Proof.Machine.execBadCell s
  | .relayCell c => Sys2Proof.Machine.execRelayCell c s
  | .edgeCell c slice lane sense coarse16 fine lost => Sys2Proof.Machine.execEdgeCell c slice lane sense coarse16 fine lost s
  | .armPointReached slot => Sys2Proof.Machine.execArmPointReached slot s
  | .gateCloseReached slot => Sys2Proof.Machine.execGateCloseReached slot s
  | .closeTimeoutExpiry slot => Sys2Proof.Machine.execCloseTimeoutExpiry slot s
  | .planStepEnd slot => Sys2Proof.Machine.execPlanStepEnd slot s
  | .epochCell c e => Sys2Proof.Machine.execEpochCell c e s
  | .transmitSlotDue => Sys2Proof.Machine.execTransmitSlotDue s
  | .tableUpdateEnd table => Sys2Proof.Machine.execTableUpdateEnd table s
  | .calCompletion => Sys2Proof.Machine.execCalCompletion s
  | .calTimeout => Sys2Proof.Machine.execCalTimeout s
  | .markerHoldExpiry marker => Sys2Proof.Machine.execMarkerHoldExpiry marker s
  | .donePulseEnd marker => Sys2Proof.Machine.execDonePulseEnd marker s
  | .name c address => Sys2Proof.Machine.execName c address s
  | .mode c state => Sys2Proof.Machine.execMode c state s
  | .ident c item => Sys2Proof.Machine.execIdent c item s
  | .nodeReset c => Sys2Proof.Machine.execNodeReset c s
  | .status c item => Sys2Proof.Machine.execStatus c item s
  | .clear c kinds linkErrors => Sys2Proof.Machine.execClear c kinds linkErrors s
  | .attnSet c enables notices mute => Sys2Proof.Machine.execAttnSet c enables notices mute s
  | .timeSetHorizon c n => Sys2Proof.Machine.execTimeSetHorizon c n s
  | .timeSetTrim c n => Sys2Proof.Machine.execTimeSetTrim c n s
  | .timeSetReport c => Sys2Proof.Machine.execTimeSetReport c s
  | .timeSetCount c => Sys2Proof.Machine.execTimeSetCount c s
  | .chanWrite c channel arg => Sys2Proof.Machine.execChanWrite c channel arg s
  | .chanRead c channel item => Sys2Proof.Machine.execChanRead c channel item s
  | .loadOpen c target first count => Sys2Proof.Machine.execLoadOpen c target first count s
  | .loadData c words => Sys2Proof.Machine.execLoadData c words s
  | .loadCommit c => Sys2Proof.Machine.execLoadCommit c s
  | .loadCancel c => Sys2Proof.Machine.execLoadCancel c s
  | .tableRead c target index => Sys2Proof.Machine.execTableRead c target index s
  | .calRun c table channel k timeout emptyLimit => Sys2Proof.Machine.execCalRun c table channel k timeout emptyLimit s
  | .calCancel c => Sys2Proof.Machine.execCalCancel c s
  | .slotSet c slot arg => Sys2Proof.Machine.execSlotSet c slot arg s
  | .slotGet c slot item => Sys2Proof.Machine.execSlotGet c slot item s
  | .arm c slot => Sys2Proof.Machine.execArm c slot s
  | .armAt c slot time => Sys2Proof.Machine.execArmAt c slot time s
  | .stop c slot => Sys2Proof.Machine.execStop c slot s
  | .hold c slot => Sys2Proof.Machine.execHold c slot s
  | .resume c slot => Sys2Proof.Machine.execResume c slot s
  | .markSetSource c marker source => Sys2Proof.Machine.execMarkSetSource c marker source s
  | .markSetInvert c marker value => Sys2Proof.Machine.execMarkSetInvert c marker value s
  | .markSetWidth c marker width => Sys2Proof.Machine.execMarkSetWidth c marker width s
  | .markLevel c marker level => Sys2Proof.Machine.execMarkLevel c marker level s
  | .queueSet c threshold => Sys2Proof.Machine.execQueueSet c threshold s
  | .unknownCommand c code => Sys2Proof.Machine.execUnknownCommand c code s

end Sys2Proof.Machine
end

