-- ==== Sys2Proof/Machine/Step.lean ====
section
/-!
DEFINITION. One step: the command or event at the front of the queue is taken by `exec`.
-/

namespace Sys2Proof.Machine

/-- The command or event at the front of the queue meets the part with the rest of the queue waiting;
on an empty queue the part idles (DESIGN CHOICE: the end of a coarse period is the row
TIMEBASE_ADVANCE, so nothing happens unasked). -/
def step (s : State) : Host.Outcome State Fault Refusal :=
  match s.pending with
  | [] => .next s
  | i :: others => exec i { s with pending := others }

/-- The state with the command that a table word spells put at the front of its queue; a word that
spells none leaves the state as it is. -/
def State.withFetchWord (s : State) (nbits w : Nat) : State :=
  match decodeTableWord nbits w with
  | some i => { s with pending := i :: s.pending }
  | none => s

end Sys2Proof.Machine
end

