-- ==== Sys2Proof/Machine/Receiver.lean ====
section
/-!
DEFINITION. The receive link as a stream of line symbols (R155, R156): the rows that the symbols give, one
after another, each found at the alignment that the row before it left.
-/

namespace Sys2Proof.Machine

/-- The part receives line symbols (R156): while they hold an event, its row is carried out, and the
search or the fixed alignment goes on in the symbols behind it. R156 does not say from which symbol the
search begins after the fourth bad cell in LOCKED: here it begins behind the 21 groups of that cell, and
none of the cell's own symbols is searched (DESIGN CHOICE, log entry 35). At most `n` events are taken.
Answers the state, and the symbols that are left. -/
def receiveLine : Nat → List Bool → State → Host.Outcome (State × List Bool) Fault Refusal
  | 0, line, s => .next (s, line)
  | n + 1, line, s =>
    match nextRow s.link.align line with
    | none => .next (s, line)
    | some (i, others) =>
      match exec i s with
      | .next t => receiveLine n others t
      | .fault f => .fault f
      | .refused r => .refused r

end Sys2Proof.Machine
end

