-- ==== Sys2Proof/Safety.lean ====
section
/-!
DEFINITION. The terms that claims about the part use: how an addressed command is taken and answered,
the records that results carry, and the invariants that hold of every state the part reaches.
-/

namespace Sys2Proof

/-! ## The cells and commands of the rows -/

/-- The cell that a row carries, where it is a received data-form cell. -/
def Instr.cell? : Instr → Option Cell
  | .powerOnReset => none
  | .resetRelease => none
  | .timebaseAdvance => none
  | .huntCellStart _ => none
  | .confirmingFillCell => none
  | .confirmingOtherCell => none
  | .linkSilentCellTime => none
  | .fillCell => none
  | .badCell => none
  | .relayCell c => some c
  | .edgeCell c _ _ _ _ _ _ => some c
  | .armPointReached _ => none
  | .gateCloseReached _ => none
  | .closeTimeoutExpiry _ => none
  | .planStepEnd _ => none
  | .epochCell c _ => some c
  | .transmitSlotDue => none
  | .tableUpdateEnd _ => none
  | .calCompletion => none
  | .calTimeout => none
  | .markerHoldExpiry _ => none
  | .donePulseEnd _ => none
  | .name c _ => some c
  | .mode c _ => some c
  | .ident c _ => some c
  | .nodeReset c => some c
  | .status c _ => some c
  | .clear c _ _ => some c
  | .attnSet c _ _ _ => some c
  | .timeSetHorizon c _ => some c
  | .timeSetTrim c _ => some c
  | .timeSetReport c => some c
  | .timeSetCount c => some c
  | .chanWrite c _ _ => some c
  | .chanRead c _ _ => some c
  | .loadOpen c _ _ _ => some c
  | .loadData c _ => some c
  | .loadCommit c => some c
  | .loadCancel c => some c
  | .tableRead c _ _ => some c
  | .calRun c _ _ _ _ _ => some c
  | .calCancel c => some c
  | .slotSet c _ _ => some c
  | .slotGet c _ _ => some c
  | .arm c _ => some c
  | .armAt c _ _ => some c
  | .stop c _ => some c
  | .hold c _ => some c
  | .resume c _ => some c
  | .markSetSource c _ _ => some c
  | .markSetInvert c _ _ => some c
  | .markSetWidth c _ _ => some c
  | .markLevel c _ _ => some c
  | .queueSet c _ => some c
  | .unknownCommand c _ => some c

/-- The command that a row is, by its code and its cell (Table 12-1); `none` for the other rows. -/
def Instr.command? : Instr → Option (Nat × Cell)
  | .powerOnReset => none
  | .resetRelease => none
  | .timebaseAdvance => none
  | .huntCellStart _ => none
  | .confirmingFillCell => none
  | .confirmingOtherCell => none
  | .linkSilentCellTime => none
  | .fillCell => none
  | .badCell => none
  | .relayCell _ => none
  | .edgeCell _ _ _ _ _ _ _ => none
  | .armPointReached _ => none
  | .gateCloseReached _ => none
  | .closeTimeoutExpiry _ => none
  | .planStepEnd _ => none
  | .epochCell _ _ => none
  | .transmitSlotDue => none
  | .tableUpdateEnd _ => none
  | .calCompletion => none
  | .calTimeout => none
  | .markerHoldExpiry _ => none
  | .donePulseEnd _ => none
  | .name c _ => some (0, c)
  | .mode c _ => some (1, c)
  | .ident c _ => some (2, c)
  | .nodeReset c => some (3, c)
  | .status c _ => some (4, c)
  | .clear c _ _ => some (5, c)
  | .attnSet c _ _ _ => some (6, c)
  | .timeSetHorizon c _ => some (7, c)
  | .timeSetTrim c _ => some (7, c)
  | .timeSetReport c => some (7, c)
  | .timeSetCount c => some (7, c)
  | .chanWrite c _ _ => some (8, c)
  | .chanRead c _ _ => some (9, c)
  | .loadOpen c _ _ _ => some (10, c)
  | .loadData c _ => some (11, c)
  | .loadCommit c => some (12, c)
  | .loadCancel c => some (13, c)
  | .tableRead c _ _ => some (14, c)
  | .calRun c _ _ _ _ _ => some (15, c)
  | .calCancel c => some (16, c)
  | .slotSet c _ _ => some (17, c)
  | .slotGet c _ _ => some (18, c)
  | .arm c _ => some (19, c)
  | .armAt c _ _ => some (20, c)
  | .stop c _ => some (21, c)
  | .hold c _ => some (22, c)
  | .resume c _ => some (23, c)
  | .markSetSource c _ _ => some (24, c)
  | .markSetInvert c _ _ => some (24, c)
  | .markSetWidth c _ _ => some (24, c)
  | .markLevel c _ _ => some (25, c)
  | .queueSet c _ => some (26, c)
  | .unknownCommand c code => some (code, c)

/-- The same command in another cell: another destination, another tag. The other rows stand. -/
def Instr.withCell (c : Cell) : Instr → Instr
  | .name _ a => .name c a
  | .mode _ m => .mode c m
  | .ident _ i => .ident c i
  | .nodeReset _ => .nodeReset c
  | .status _ i => .status c i
  | .clear _ k e => .clear c k e
  | .attnSet _ e n m => .attnSet c e n m
  | .timeSetHorizon _ n => .timeSetHorizon c n
  | .timeSetTrim _ n => .timeSetTrim c n
  | .timeSetReport _ => .timeSetReport c
  | .timeSetCount _ => .timeSetCount c
  | .chanWrite _ ch a => .chanWrite c ch a
  | .chanRead _ ch i => .chanRead c ch i
  | .loadOpen _ t f n => .loadOpen c t f n
  | .loadData _ ws => .loadData c ws
  | .loadCommit _ => .loadCommit c
  | .loadCancel _ => .loadCancel c
  | .tableRead _ t i => .tableRead c t i
  | .calRun _ t ch k o e => .calRun c t ch k o e
  | .calCancel _ => .calCancel c
  | .slotSet _ i a => .slotSet c i a
  | .slotGet _ i a => .slotGet c i a
  | .arm _ i => .arm c i
  | .armAt _ i t => .armAt c i t
  | .stop _ i => .stop c i
  | .hold _ i => .hold c i
  | .resume _ i => .resume c i
  | .markSetSource _ m v => .markSetSource c m v
  | .markSetInvert _ m v => .markSetInvert c m v
  | .markSetWidth _ m v => .markSetWidth c m v
  | .markLevel _ m v => .markLevel c m v
  | .queueSet _ n => .queueSet c n
  | .unknownCommand _ n => .unknownCommand c n
  | i => i

namespace Machine

/-! ## A command that the part takes and answers -/

/-- The part decodes cells: RESETn is released and the receiver is LOCKED (R156). -/
abbrev Receiving (s : State) : Prop := s.held = false ∧ s.link.align = .locked

/-- The destination selects the part alone (R158, R165): the address of the part, or 0 while it is
UNNAMED. -/
abbrev Addresses (s : State) (c : Cell) : Prop :=
  (cellNode c = 0 ∧ s.node.state = .unnamed) ∨
    (1 ≤ cellNode c ∧ cellNode c ≤ 14 ∧ cellNode c = s.node.address)

/-- An addressed command that finds room in the reply queue (R165, R166). -/
abbrev Takes (s : State) (c : Cell) : Prop :=
  Receiving s ∧ Addresses s c ∧ s.command.replies.length < 8

/-- The same, while no load is OPEN, so that the command abandons none (R176). -/
abbrev TakesQuietly (s : State) (c : Cell) : Prop := Takes s c ∧ s.command.load.phase ≠ .opened

/-- What the arrival of a consumed cell leaves (R156, R158): the bad-cell run is 0, and its slot is
free. -/
def consumed (s : State) : State :=
  { s with link := { s.link with badRun := 0, slots := s.link.slots ++ [.free] } }

/-- What the arrival of a relayed cell leaves (R156, R158). -/
def relayed (c : Cell) (s : State) : State :=
  { s with link := { s.link with badRun := 0, slots := s.link.slots ++ [.relay c] } }

/-- A reply to command `c` joins the reply queue (R166). -/
def replied (c : Cell) (code : ReplyCode) (fields : List Field) (s : State) : State :=
  { s with
    command := { s.command with replies := s.command.replies ++ [⟨cellTag c, code, fields⟩] } }

/-- A slot of the transmit link is free and due: it is the slot of a received cell, or the receiver is
not LOCKED and no such slot waits (R159). `others` are the slots behind it. -/
abbrev FreeSlotDue (s : State) (others : List TxSlot) : Prop :=
  s.held = false ∧
    (s.link.slots = .free :: others ∨
      (s.link.slots = [] ∧ others = [] ∧ s.link.align ≠ .locked))

/-! ## Invariants -/

/-- No two entries of the Capture Map whose action is TAKE or COPY name the same channel (R22). -/
def MapSound (m : Bank MapEntry 128) : Prop :=
  ∀ (c : Fin 16) (i j : Fin 128),
    (m.get i).claims c = true → (m.get j).claims c = true → i = j

/-- The entries do not fall from one fine code to the next (R50). -/
def Rising (e : Entries) : Prop := ∀ i j : Fin 256, i ≤ j → e.get i ≤ e.get j

/-- A table's stored entries are rising, and so are those that its update ends with, which has run for
fewer than 500 periods (R50, R55). -/
def TableSound (t : Table) : Prop :=
  Rising t.entries ∧
    match t.phase with
    | .updating n merged => n < 500 ∧ Rising merged
    | .nominal => True
    | .loaded => True

/-- The Result Queue: at most 512 cells; the cells sent are fewer than the head record has, and 0 when
there is none; the limit mark is set only at 65535; the threshold lies in 1..512 (R137, R138, R140). -/
def ResultsSound (q : ResultQueue) : Prop :=
  q.occupancy ≤ 512 ∧
    (match q.records with
      | [] => q.sent = 0
      | r :: _ => q.sent < r.size) ∧
    q.gaps ≤ 65535 ∧ (q.gapLimit = true → q.gaps = 65535) ∧ 1 ≤ q.threshold ∧ q.threshold ≤ 512

/-- The reply queue holds at most 8 replies, and of the head reply fewer cells are sent than it has
(R166). -/
def RepliesSound (u : CommandUnit) : Prop :=
  u.replies.length ≤ 8 ∧
    match u.replies with
    | [] => u.repliesSent = 0
    | r :: _ => u.repliesSent < r.cells

/-- The pending-notice set holds each kind at most once, and a pending kind's flag and notice bit are
set (R169, R170). -/
def NoticesSound (u : CommandUnit) : Prop :=
  u.notices.Nodup ∧
    ∀ k ∈ u.notices, (u.attns.get k.code).flag = true ∧ (u.attns.get k.code).notice = true

/-- The load buffer by its state (R173, R174). -/
def LoadSound (l : LoadBuffer) : Prop :=
  match l.phase with
  | .empty => l.words = []
  | .opened =>
    l.words.length < l.expected ∧ l.expected = l.count * l.target.entryWords ∧ l.expected ≤ 64 ∧
      l.first + l.count ≤ l.target.extent
  | .full =>
    l.words.length = l.expected ∧ l.expected = l.count * l.target.entryWords ∧ l.expected ≤ 64 ∧
      l.first + l.count ≤ l.target.extent

/-- A slot in IDLE has an empty run context, but for the gate index that its last run left (R91,
R126). -/
def SlotSound (x : Slot) : Prop :=
  x.state = .idle → x.run = { Run.empty with gateIndex := x.run.gateIndex }

/-- The Calibration Engine (R62, R65, R66): every hit is in a bin; an ACTIVE run is RUNNING, has fewer
hits than L and has not reached its time limit; an IDLE engine is not RUNNING. -/
def CalSound (g : Calibration) : Prop :=
  g.bins.cells.sum = g.hits ∧
    (g.active = true →
      g.outcome = .running ∧ g.hits < 2 ^ g.k ∧ g.elapsed < g.limit) ∧
    (g.active = false → g.outcome ≠ .running)

/-- The quality results of a histogram whose hits number `total` (R68, R69): the empty bins, at most
255, and the widest bin with its code, the lowest that has the greatest count. -/
def QualityOf (bins : Bank Nat 256) (total empty widest code : Nat) : Prop :=
  empty = min 255 (bins.cells.count 0) ∧
    (total = 0 → widest = 0 ∧ code = 0) ∧
    (0 < total → ∃ h : code < 256,
      widest = bins.get ⟨code, h⟩ * 4096 / total ∧ (∀ b, bins.get b ≤ bins.get ⟨code, h⟩) ∧
        ∀ b : Fin 256, b.val < code → bins.get b < bins.get ⟨code, h⟩)

/-- The RATE record with values that slot `i`, as it stands in `x`, gives for N = `n` and the closing stamp
`t1`, with run flags `flags` (R109, R119 to R121, R127): T is the difference of `t1` from t0 or, where that is
0 or less, 2^58 − 1; F is held to 2^64 − 1; the substitute and the held F record SATURATED. -/
def rateRecord (i : Fin 8) (x : Slot) (n : Nat) (t1 : Stamp) (flags : RunFlags) : Record :=
  let t0 := x.run.t0.getD 0
  let d := stampDiff t1 t0
  let t := if 0 < d then d.toNat else 2 ^ 58 - 1
  let np := n * x.run.prescale
  let f := (2 * np * 1024000000000000 + t) / (2 * t)
  { slot := i, gateIndex := x.run.gateIndex, seq := x.seq, values := true
    flags :=
      { flags with saturated := flags.saturated || (decide (d ≤ 0) || decide (2 ^ 64 - 1 < f)) }
    body :=
      .rate x.run.prescale n t0 t1 (min (2 ^ 64 - 1) f) ((2 * 256 * t + np) / (2 * np)) }

/-- The value fields of a record without values (R130): P as read at arm, and otherwise zeros. -/
def zeroBody (x : Slot) : RecordBody :=
  match x.config.kind with
  | .rate => .rate x.run.prescale 0 0 0 0 0
  | .interval => .interval 0 0 0 0 0 0
  | .total => .total 0 0 0 0 0

/-- Table `t` is neither UPDATING nor the target of an active calibration run. -/
def TableUnclaimed (s : State) (t : Fin 8) : Prop :=
  (s.tables.get t).isUpdating = false ∧ (s.cal.active = true → s.cal.table ≠ t)

/-- A staged commit and a calibration never meet on one table (R53, R57): the table of a LIN load in
the buffer is unclaimed, and the table of an active run is not UPDATING. -/
def TablesApart (s : State) : Prop :=
  (∀ t, s.command.load.phase ≠ .empty → s.command.load.target = .lin t → TableUnclaimed s t) ∧
    (s.cal.active = true → (s.tables.get s.cal.table).isUpdating = false)

/-- The node: UNNAMED with address 0, or named with an address in 1..14 (R167). -/
def NodeSound (n : Node) : Prop :=
  match n.state with
  | .unnamed => n.address = 0
  | .active => 1 ≤ n.address ∧ n.address ≤ 14
  | .bypass => 1 ≤ n.address ∧ n.address ≤ 14

/-- A channel: P in 1..65536, the phase below P, and counters in 0..65535 (R32, R33, R42, R47). -/
def ChannelSound (x : Channel) : Prop :=
  1 ≤ x.set.prescale ∧ x.set.prescale ≤ 65536 ∧ x.status.phase < x.set.prescale ∧
    x.status.suppressed ≤ 65535 ∧ x.status.orderFaults ≤ 65535

/-- The Plan Table: every step has a length, and step 63 does not lead on (R114, R115). -/
def PlanSound (p : Bank PlanStep 64) : Prop :=
  (∀ n, (p.get n).length ≠ 0) ∧ (p.get 63).action ≠ .next

/-- Step `b` follows step `a` by the stored actions (R115). -/
def LeadsTo (p : Bank PlanStep 64) (a b : Fin 64) : Prop :=
  ((p.get a).action = .next ∧ b.val = a.val + 1) ∨ (p.get a).action = .jump b

/-- The Ordering Queue holds at most 256 entries, each later than W, and in queue order (R75, R76,
R79). -/
def OrderSound (q : OrderingQueue) : Prop :=
  q.entries.length ≤ 256 ∧ (∀ e ∈ q.entries, later e.stamp q.mark = true) ∧
    q.entries.Pairwise fun a b => beforeInQueue b a = false

/-- A slot's configuration record holds values of Table 7-1 (R89). -/
def ConfigSound (g : SlotConfig) : Prop :=
  1 ≤ g.length ∧ g.length ≤ 2 ^ 40 ∧ g.repeats ≤ 65535 ∧ 1 ≤ g.samples ∧ g.samples ≤ 65535 ∧
    1 ≤ g.timeout ∧ g.timeout ≤ 2 ^ 32 - 1

/-- The Timebase: the horizon lies in 256..65535, the last offset in −32768..32767, and there is no
outcome and no offset in UNSET (R8, R10, R13, R16). -/
def TimebaseSound (t : Timebase) : Prop :=
  256 ≤ t.horizon ∧ t.horizon ≤ 65535 ∧ -32768 ≤ t.offset ∧ t.offset ≤ 32767 ∧
    (t.epoch = .unset ↔ t.outcome = .never)

/-- A marker: a width of 0..65535, a TIMEBASE period of 2..2^32, a pulse end only under DONE, and a node
reset's transition waits only at a HIGH pin that is wanted LOW, under the width 0 (R146, R147, R152). -/
def MarkerSound (m : Marker) : Prop :=
  m.width ≤ 65535 ∧ (∀ p, m.source = .timebase p → 2 ≤ p ∧ p ≤ 2 ^ 32) ∧
    (m.pulseEnd ≠ none → ∃ i, m.source = .done i) ∧
    (m.resetHold ≠ none → m.width = 0 ∧ m.pin = .high ∧ m.wanted = .low)

/-- While RESETn is low, every block is at its power-on values (R177). -/
def HeldSound (s : State) : Prop :=
  s.held = true →
    s = { State.reset with pending := s.pending, choices := s.choices, held := true }

end Machine

end Sys2Proof
end

