-- ==== Sys2Proof/Certificates/Slice0/Obligations.lean ====
section
/-!
DEFINITION. The statements about the EN1608, by chapter of its spec.
-/

open Sys2Proof Sys2Proof.Machine

/-! ## The machine -/

/-- A step takes the command or event at the front of the queue and is `exec` of it on the state with
the rest of the queue. On an empty queue the part idles: that is the model's own choice
(notes/assumptions/2.md). -/
def Obligations.StepTakesFrontCommand : Prop :=
  (∀ (i : Instr) (others : List Instr) (s : State), s.pending = i :: others →
    step s = exec i { s with pending := others }) ∧
  (∀ (i : Instr) (s : State), step { s with pending := i :: s.pending } = exec i s) ∧
  ∀ s : State, s.pending = [] → step s = .next s

/-- No row of the table stops the part: each answers a next state, and leaves the queue of waiting
commands as it was. -/
def Obligations.EveryRowGoesOn : Prop :=
  ∀ (i : Instr) (s : State), ∃ t : State, exec i s = .next t ∧ t.pending = s.pending

/-- A power-on reset brings the part to its power-on values and holds it there; the release of RESETn
lets it go and changes nothing else (R177). The values are those of R16, R18, R32, R33, R49, R62, R77,
R89, R91, R113, R114, R137, R146, R156, R159, R166, R167, R169, R173. The model's own are the fields that
the spec does not name: the run's (notes/assumptions/5.md), the empty details (7.md), the waiting transmit
slots and the latest cell (13.md), the EMPTY buffer's target LIN 0 (16.md), and each marker's hold-until
and shown level (12.md, 22.md). The reset state itself has RESETn released (6.md). -/
def Obligations.PowerOnResetAndRelease : Prop :=
  (∀ s : State, ∃ t : State, exec .powerOnReset s = .next t ∧
    t.pending = s.pending ∧ t.choices = s.choices ∧ t.held = true ∧
    t.link = { align := .hunt, goodRun := 0, badRun := 0, errors := 0, slots := [], out := .fill } ∧
    t.node = { address := 0, state := .unnamed } ∧
    t.timebase =
      { count := 0, epoch := .unset, trim := 0, horizon := 8192, outcome := .never, offset := 0 } ∧
    (∀ i, t.map.get i = { action := .pass, channel := 0 }) ∧
    (∀ c : Fin 16, (t.channels.get c).set.enable = false ∧ (t.channels.get c).set.sense = .rise ∧
      (t.channels.get c).set.invert = false ∧ (t.channels.get c).set.table.val = c.val % 8 ∧
      (t.channels.get c).set.deskew = 0 ∧ (t.channels.get c).set.holdoff = 0 ∧
      (t.channels.get c).set.prescale = 1 ∧ (t.channels.get c).set.stream = false ∧
      (t.channels.get c).status.level = .unknown ∧ (t.channels.get c).status.last = none ∧
      (t.channels.get c).status.phase = 0 ∧ (t.channels.get c).status.suppressed = 0 ∧
      (t.channels.get c).status.orderFaults = 0 ∧ (t.channels.get c).status.sourceGap = false) ∧
    (∀ n, (t.tables.get n).phase = .nominal ∧
      ∀ f : Fin 256, ((t.tables.get n).entries.get f).toNat = f.val * 16 + 8) ∧
    t.cal =
      { active := false, table := 0, channel := 0, k := 0, timeout := 0, emptyLimit := 0, hits := 0
        elapsed := 0, outcome := .never, emptyBins := 0, widestBin := 0, widestCode := 0
        bins := t.cal.bins } ∧
    (∀ b, t.cal.bins.get b = 0) ∧
    t.queue.entries = [] ∧ t.queue.mark.toNat = (2 ^ 47 - 8192) * 4096 ∧
    (∀ i, t.slots.get i =
      { config :=
          { kind := .rate, endpointA := ⟨0, .any⟩, endpointB := none, armSource := .immediate
            gate := .timed, length := 250000, repeats := 1, samples := 1, restart := .keepFirst
            shared := false, timeout := 33554432, report := true }
        state := .idle
        run :=
          { armAt := none, armWait := false, watching := false, gateIndex := 0, tOpen := none
            tClose := none, pendingGate := none, passed := 0, lastGate := false, prescale := 0
            t0 := none, lastA := none, n := 0, pendingA := none, count := 0, min := none
            max := none, sum := 0, countA := 0, countB := 0, planStep := none, stepRecord := none
            stepEnd := none, extPhase := none
            flags :=
              { stopped := false, noSignal := false, closeLate := false, short := false
                epochStep := false, gap := false, nominal := false, unepoched := false
                reorder := false, lateEdge := false, saturated := false } }
        seq := 0, retained := none }) ∧
    (∀ n, t.plan.get n = { length := 250000, kind := .measure, markers := 0, action := .last }) ∧
    t.results = { records := [], sent := 0, gaps := 0, gapLimit := false, threshold := 384 } ∧
    t.markerTime = 0 ∧
    (∀ m, t.markers.get m =
      { source := .off, invert := false, width := 0, held := false, request := false, pin := .low
        shown := .low, lastTransition := 0, resetHold := none, pulseEnd := none }) ∧
    t.command.replies = [] ∧ t.command.repliesSent = 0 ∧ t.command.notices = [] ∧
    t.command.mute = false ∧
    t.command.load =
      { phase := .empty, target := .lin 0, first := 0, count := 0, expected := 0, words := [] } ∧
    ∀ k, t.command.attns.get k = { flag := false, enable := true, notice := false, detail := [] }) ∧
  ∀ s : State, exec .resetRelease s = .next { s with held := false }

/-- NODE-RESET's effect is that of power-on except for what is kept, and its DONE reply is the reply
queue's only entry (R177, R16, R146): the node, the alignment and its runs, the count, epoch state, trim
and last-epoch record, marker time and each marker's last transition. W is the frontier of the kept
count and horizon 8192. A pin that is HIGH under a hold stays HIGH until the hold expires; one that is HIGH
without goes LOW now, which is its last transition; one that is LOW keeps its last transition. A fourth bad
cell behind the reset returns the receiver to HUNT and counts 1 (R164). The model's own: that the cell of the
NODE-RESET leaves the bad-cell run as it found it, where R156's row has a good cell make it 0
(notes/assumptions/34.md), the kept transmit slots (13.md), a command that finds 8 replies queued is discarded
first (15.md), the emptied buffer (16.md), and that a second reset under a kept hold finds the width 0 in
force (33.md). -/
def Obligations.NodeResetKeepsOnlyWhatR177Lists : Prop :=
  (∀ (c : Cell) (s : State), Takes s c → ∃ t : State, exec (.nodeReset c) s = .next t ∧
    t.pending = s.pending ∧ t.held = s.held ∧ t.choices = s.choices ∧
    t.node = s.node ∧
    t.link = { s.link with errors := 0, slots := s.link.slots ++ [.free] } ∧
    t.timebase = { s.timebase with horizon := 8192 } ∧
    t.markerTime = s.markerTime ∧
    t.queue = { entries := [], mark := stampOf (s.timebase.count - 8192) } ∧
    t.map = State.reset.map ∧ t.channels = State.reset.channels ∧ t.tables = State.reset.tables ∧
    t.cal = State.reset.cal ∧ t.slots = State.reset.slots ∧ t.plan = State.reset.plan ∧
    t.results = State.reset.results ∧
    t.command =
      { State.reset.command with replies := [⟨cellTag c, .done, []⟩] } ∧
    ∀ m : Fin 4,
      let before := s.markers.get m
      let after := t.markers.get m
      let hold := before.lastTransition + before.width
      after.source = .off ∧ after.invert = false ∧ after.width = 0 ∧ after.held = false ∧
      after.request = false ∧ after.pulseEnd = none ∧ after.shown = before.shown ∧
      (before.pin = .high → s.markerTime < hold →
        after.pin = .high ∧ after.resetHold = some hold ∧
          after.lastTransition = before.lastTransition) ∧
      (before.pin = .high → hold ≤ s.markerTime →
        after.pin = .low ∧ after.resetHold = none ∧
          after.lastTransition = s.markerTime) ∧
      (before.pin = .low →
        after.pin = .low ∧ after.resetHold = none ∧
          after.lastTransition = before.lastTransition)) ∧
  ∀ (c : Cell) (s : State), Takes s c → s.link.badRun = 3 → ∃ t u : State,
    exec (.nodeReset c) s = .next t ∧ exec .badCell t = .next u ∧
    u.link =
      { s.link with
        badRun := 4, errors := 1, align := .hunt, slots := s.link.slots ++ [.free, .free] }

/-! ## The ring link -/

/-- The alignment in HUNT and CONFIRMING (R156): twenty FILL-MARK groups after a CELL-START take HUNT
to CONFIRMING, any other twenty leave HUNT; good FILL cells take CONFIRMING to LOCKED at the fourth
after it, with LINK LOCKED raised, and any other cell or a silent cell time takes it back to HUNT. -/
def Obligations.AlignmentIsFoundByR156 : Prop :=
  ∀ s : State, s.held = false →
    (s.link.align = .hunt →
      (∀ groups : List Group, exec (.huntCellStart groups) s = .next
        (if groups = List.replicate 20 0b11111 then
          { s with link := { s.link with align := .confirming, goodRun := 0 } }
        else s)) ∧
      exec .linkSilentCellTime s = .next s) ∧
    (s.link.align = .confirming →
      (s.link.goodRun < 3 → exec .confirmingFillCell s =
        .next { s with link := { s.link with goodRun := s.link.goodRun + 1 } }) ∧
      (s.link.goodRun = 3 → exec .confirmingFillCell s =
        .next (raise .link [num 1 0]
          { s with link := { s.link with goodRun := 4, align := .locked, badRun := 0 } })) ∧
      exec .confirmingOtherCell s = .next { s with link := { s.link with align := .hunt } } ∧
      exec .linkSilentCellTime s = .next { s with link := { s.link with align := .hunt } })

/-- A bad cell in LOCKED, and a silent cell time, count a link error (saturating at 65535), lengthen
the bad-cell run and give a free slot; the fourth in a row returns the receiver to HUNT with LINK LOST
raised (R156, R157, R158). -/
def Obligations.BadCellsInLocked : Prop :=
  ∀ s : State, Receiving s →
    exec .linkSilentCellTime s = exec .badCell s ∧
    (s.link.badRun < 3 → exec .badCell s =
      .next { s with
        link :=
          { s.link with
            badRun := s.link.badRun + 1, errors := min 65535 (s.link.errors + 1)
            slots := s.link.slots ++ [.free] } }) ∧
    (s.link.badRun = 3 → exec .badCell s =
      .next (raise .link [num 1 1]
        { s with
          link :=
            { s.link with
              badRun := 4, errors := min 65535 (s.link.errors + 1), align := .hunt
              slots := s.link.slots ++ [.free] } }))

/-- A good FILL cell in LOCKED gives a free slot, and a cell that no block takes is relayed in its own;
either makes the bad-cell run 0 and changes nothing else (R156, R158). The slot of a relayed cell carries
that cell, bit for bit; while RESETn is low the link sends FILL; in LOCKED nothing is sent without a slot
of a received cell (R159). -/
def Obligations.FillAndRelayedCells : Prop :=
  (∀ s : State, Receiving s →
    exec .fillCell s =
      .next { s with link := { s.link with badRun := 0, slots := s.link.slots ++ [.free] } } ∧
    (∀ c : Cell, exec (.relayCell c) s =
      .next { s with link := { s.link with badRun := 0, slots := s.link.slots ++ [.relay c] } }) ∧
    (s.link.slots = [] → exec .transmitSlotDue s = .next s)) ∧
  (∀ (c : Cell) (others : List TxSlot) (s : State), s.held = false →
    s.link.slots = .relay c :: others →
    exec .transmitSlotDue s =
      .next { s with link := { s.link with slots := others, out := .data c } }) ∧
  ∀ s : State, s.held = true →
    exec .transmitSlotDue s = .next { s with link := { s.link with out := .fill } }

/-- The Insertion Arbiter's order (R160): the oldest pending notice unless muted, then the head reply's
next cell, then the head record's next cell, then FILL. A reply and a record leave with their last
cell, and a notice's kind leaves the set. The last clauses lay out the cells themselves (R161, R162, R163,
Tables 11-1 to 11-3): kind and node address in the header, the fields packed from the most significant bit
on, a reply of more than 48 bits in two cells, and the sizes in cells (R137). The codes of the kinds of
attention and of the reply codes are their places in the lists of R169 and R166. -/
def Obligations.ArbiterOrderOfR160 : Prop :=
  (∀ (s : State) (others : List TxSlot), FreeSlotDue s others →
    (∀ (k : AttnKind) (ks : List AttnKind), s.command.mute = false → s.command.notices = k :: ks →
      exec .transmitSlotDue s =
        .next { s with
          link := { s.link with slots := others, out := .data (noticeCell s k) }
          command := { s.command with notices := ks } }) ∧
    (s.command.mute = true ∨ s.command.notices = [] →
      (∀ (r : Reply) (rs : List Reply), s.command.replies = r :: rs →
        exec .transmitSlotDue s =
          .next { s with
            link :=
              { s.link with
                slots := others, out := .data (replyCell s.node r s.command.repliesSent) }
            command :=
              if s.command.repliesSent + 1 < r.cells then
                { s.command with repliesSent := s.command.repliesSent + 1 }
              else { s.command with replies := rs, repliesSent := 0 } }) ∧
      (s.command.replies = [] →
        (∀ (r : QueueRecord) (rs : List QueueRecord), s.results.records = r :: rs →
          exec .transmitSlotDue s =
            .next { s with
              link :=
                { s.link with slots := others, out := .data (recordCell s.node s.results.sent r) }
              results :=
                if s.results.sent + 1 < r.size then
                  { s.results with sent := s.results.sent + 1 }
                else { s.results with records := rs, sent := 0 } }) ∧
        (s.results.records = [] →
          exec .transmitSlotDue s =
            .next { s with link := { s.link with slots := others, out := .fill } })))) ∧
  -- the packing of fields (R161)
  (∀ (fs : List Field) (w v : Nat), packedValue [] = 0 ∧ packedWidth [] = 0 ∧
    packedWidth (fs ++ [⟨w, v⟩]) = packedWidth fs + w ∧
    packedValue (fs ++ [⟨w, v⟩]) = packedValue fs * 2 ^ w + v % 2 ^ w) ∧
  (∀ (room : Nat) (fs : List Field), packedWidth fs ≤ room →
    packInto room fs = packedValue fs * 2 ^ (room - packedWidth fs)) ∧
  -- notices and replies
  (∀ (s : State) (k : AttnKind), noticeCell s k =
    ⟨BitVec.ofNat 8 (7 * 16 + s.node.address),
      BitVec.ofNat 64 (k.code.val * 2 ^ 56 + packInto 56 (s.command.attns.get k.code).detail)⟩) ∧
  (∀ (n : Node) (r : Reply), let head := r.tag.toNat * 2 ^ 56 + r.code.code * 2 ^ 48
    let header : Byte := BitVec.ofNat 8 (4 * 16 + n.address)
    (packedWidth r.fields ≤ 48 → r.cells = 1 ∧
      replyCell n r 0 = ⟨header, BitVec.ofNat 64 (head + packInto 48 r.fields)⟩) ∧
    (48 < packedWidth r.fields → r.cells = 2 ∧
      replyCell n r 0 =
        ⟨header, BitVec.ofNat 64 (head + 2 ^ 55 + packInto 96 r.fields / 2 ^ 48)⟩ ∧
      replyCell n r 1 =
        ⟨header, BitVec.ofNat 64 (head + 2 ^ 54 + packInto 96 r.fields % 2 ^ 48)⟩)) ∧
  [AttnKind.link, .epoch, .late, .reorder, .order, .gap, .high, .table, .cal, .slot, .load,
    .replyLost].map (fun k => k.code.val) = List.range 12 ∧
  [ReplyCode.done, .accepted, .state, .busy, .range, .sequence, .conflict, .shape, .inUse, .tooLate,
    .wrongKind, .unknown].map ReplyCode.code = List.range 12 ∧
  -- records (`Obligations.ResultLeavesItsSlot` gives the bytes of a result record)
  (∀ (n : Node) (r : Record) (j : Nat), j < r.body.cells → recordCell n j (.result r) =
    ⟨BitVec.ofNat 8 (5 * 16 + n.address),
      BitVec.ofNat 64 (r.slot.val * 2 ^ 61 + j * 2 ^ 58 +
        (if j + 1 = r.body.cells then 2 ^ 57 else 0) + r.segment j)⟩) ∧
  (∀ (n : Node) (ch : Fin 16) (se : Sense) (m : EdgeMarks) (stamp : BitVec 56),
    recordCell n 0 (.stamp ch se m stamp) =
      ⟨BitVec.ofNat 8 (6 * 16 + n.address),
        BitVec.ofNat 64 (ch.val * 2 ^ 60 + (if se = .rise then 0 else 2 ^ 59) +
          m.nominal.toNat * 2 ^ 58 + m.gap.toNat * 2 ^ 57 + m.unepoched.toNat * 2 ^ 56 +
          stamp.toNat)⟩) ∧
  (∀ (n : Node) (count : Nat) (limit : Bool), count ≤ 65535 →
    recordCell n 0 (.gap count limit) =
      ⟨BitVec.ofNat 8 (5 * 16 + n.address),
        BitVec.ofNat 64 (7 * 2 ^ 58 + 2 ^ 57 + count * 2 ^ 40 + limit.toNat * 2 ^ 39)⟩) ∧
  ∀ (r : Record) (ch : Fin 16) (se : Sense) (m : EdgeMarks) (stamp : BitVec 56) (count : Nat)
    (limit : Bool),
    (QueueRecord.result r).size = (if r.body.kind = .total then 6 else 7) ∧
    (QueueRecord.stamp ch se m stamp).size = 1 ∧ (QueueRecord.gap count limit).size = 1

/-- The line code (R155): the twenty groups that carry a data-form cell are judged good and give that cell
back, nothing else is judged that cell, and twenty FILL-MARK groups are the FILL cell. The groups are those
of the table, and the check is the CRC of the generator x^8 + x^2 + x + 1 from 0xFF. The receiver reads line
symbols (R156): in HUNT a CELL-START is found at any symbol position, and the search goes on from the symbol
after one that no good FILL cell follows; at the fixed alignment the next 21 groups are a cell, bad, or in
CONFIRMING no good FILL cell, where the first of them is not CELL-START. (By the model's choice the search
after the fourth bad cell in LOCKED begins behind that cell's 21 groups, notes/assumptions/35.md. That 11000
can also arise across two data groups is 30.md; the timing of the symbols is left out, 14.md.) -/
def Obligations.LineCodeRoundTrip : Prop :=
  let table : List Group :=
    [0b01001, 0b01010, 0b01011, 0b01101, 0b01110, 0b10001, 0b10010, 0b10011,
     0b10100, 0b10101, 0b10110, 0b10111, 0b11001, 0b11010, 0b11011, 0b11101]
  let marked : List Group := List.replicate 20 0b11111
  let line (gs : List Group) : List Bool := gs.flatMap fun g => (List.range 5).map fun k => g.getMsbD k
  (∀ c : Cell, judgeGroups (cellGroups c) = .good c) ∧
  (∀ c : Cell, decodeGroups .locked (cellGroups c) = decodeCell c) ∧
  decodeGroups .locked marked = .fillCell ∧
  (∀ (gs : List Group) (c : Cell), judgeGroups gs = .good c → gs = cellGroups c) ∧
  (∀ gs : List Group, judgeGroups gs = .fill ↔ gs = marked) ∧
  -- the twenty groups of a cell, high nibble first, and its check
  (∀ c : Cell, cellGroups c =
    ((List.range 20).map fun k => table.getD
      ((c.header.toNat * 2 ^ 72 + c.payload.toNat * 2 ^ 8 + (cellCheck c).toNat) /
        16 ^ (19 - k) % 16) 0)) ∧
  (∀ c : Cell, cellCheck c =
    ((List.range 72).foldl (fun (r : Byte) k =>
      if r.getMsbD 0 != (c.header ++ c.payload).getMsbD k then (r <<< 1) ^^^ 0x07 else r <<< 1)
      0xFF)) ∧
  -- the next 21 groups, at the fixed alignment and in the search
  (∀ (g : Group) (gs : List Group) (others : List Bool), gs.length = 20 →
    nextRow .locked (line (g :: gs) ++ others) =
      some (if g = 0b11000 then decodeGroups .locked gs else .badCell, others) ∧
    nextRow .confirming (line (g :: gs) ++ others) =
      some (if g = 0b11000 ∧ gs = marked then .confirmingFillCell else .confirmingOtherCell,
        others) ∧
    (g = 0b11000 → nextRow .hunt (line (g :: gs) ++ others) =
      some (.huntCellStart gs, if gs = marked then others else line gs ++ others))) ∧
  (∀ (b : Bool) (others : List Bool), 104 ≤ others.length →
    (b :: others).take 5 ≠ [true, true, false, false, false] →
    nextRow .hunt (b :: others) = nextRow .hunt others) ∧
  (∀ (align : Machine.Alignment) (symbols : List Bool), symbols.length < 105 →
    nextRow align symbols = none) ∧
  ∀ (n : Nat) (symbols others : List Bool) (i : Instr) (s t : State),
    (nextRow s.link.align symbols = none → receiveLine n symbols s = .next (s, symbols)) ∧
    (nextRow s.link.align symbols = some (i, others) → exec i s = .next t →
      receiveLine (n + 1) symbols s = receiveLine n others t)

/-- Every data-form cell is read as a row that the wire can carry, and that row carries the cell itself
(R158, R161, R162). The row and its operands stand at the places of Tables 11-1 and 11-2, and those of a
command at the bits that R161 packs them in; the 8 and 7 bits of LOAD-OPEN's first index and count for
every target, and the 9 of TABLE-READ's index, are the model's reading (notes/assumptions/9.md). -/
def Obligations.EveryCellIsReadAsItsRow : Prop :=
  ∀ c : Cell, (decodeCell c).wellFormed = true ∧ (decodeCell c).cell? = some c ∧
    let kind := c.header.toNat / 16
    let p := c.payload.toNat
    let code := p / 2 ^ 48 % 64
    let high := p / 2 ^ 54 % 4
    let arg (off w : Nat) : Nat := p / 2 ^ (48 - off - w) % 2 ^ w
    let is (n : Nat) (i : Instr) : Prop := kind = 3 → code = n → decodeCell c = i
    let when (n : Nat) (h : Prop) (i : Instr) : Prop := h → is n i
    (kind ≠ 1 → kind ≠ 2 → kind ≠ 3 → decodeCell c = .relayCell c) ∧
    (kind = 1 → ∀ (slice : Fin 32) (lane : Fin 4) (fine : Fin 256), slice.val = p / 2 ^ 59 →
      lane.val = p / 2 ^ 57 % 4 → fine.val = p / 2 ^ 24 % 256 →
      decodeCell c = .edgeCell c slice lane (if p / 2 ^ 56 % 2 = 0 then .rise else .fall)
        (BitVec.ofNat 16 (p / 2 ^ 32)) fine (decide (p / 2 ^ 55 % 2 = 1))) ∧
    (kind = 2 → decodeCell c = .epochCell c (BitVec.ofNat 47 (p / 2 ^ 16))) ∧
    is 0 (.name c (arg 0 4)) ∧ is 1 (.mode c (arg 0 2)) ∧ is 2 (.ident c (arg 0 2)) ∧
    is 3 (.nodeReset c) ∧
    when 4 (arg 0 3 = 0) (.status c .flags) ∧ when 4 (arg 0 3 = 1) (.status c .node) ∧
    when 4 (arg 0 3 = 2) (.status c .queue) ∧ when 4 (arg 0 3 = 3) (.status c .load) ∧
    when 4 (arg 0 3 = 4) (.status c .tables) ∧
    when 4 (5 ≤ arg 0 3) (.status c (.other (arg 0 3))) ∧
    is 5 (.clear c (BitVec.ofNat 12 (arg 0 12)) (decide (arg 12 1 = 1))) ∧
    is 6 (.attnSet c (BitVec.ofNat 12 (arg 0 12)) (BitVec.ofNat 12 (arg 12 12))
      (decide (arg 24 1 = 1))) ∧
    when 7 (arg 0 2 = 0) (.timeSetHorizon c (arg 2 16)) ∧
    when 7 (arg 0 2 = 1) (.timeSetTrim c (arg 2 10)) ∧
    when 7 (arg 0 2 = 2) (.timeSetReport c) ∧ when 7 (arg 0 2 = 3) (.timeSetCount c) ∧
    when 8 (arg 4 3 = 0) (.chanWrite c (arg 0 4) (.enable (arg 7 1))) ∧
    when 8 (arg 4 3 = 1) (.chanWrite c (arg 0 4) (.sense (arg 7 2))) ∧
    when 8 (arg 4 3 = 2) (.chanWrite c (arg 0 4) (.invert (arg 7 1))) ∧
    when 8 (arg 4 3 = 3) (.chanWrite c (arg 0 4) (.table (arg 7 3))) ∧
    when 8 (arg 4 3 = 4) (.chanWrite c (arg 0 4)
      (.deskew (if arg 7 21 < 2 ^ 20 then (arg 7 21 : Int) else (arg 7 21 : Int) - 2 ^ 21))) ∧
    when 8 (arg 4 3 = 5) (.chanWrite c (arg 0 4) (.holdoff (arg 7 16))) ∧
    when 8 (arg 4 3 = 6) (.chanWrite c (arg 0 4) (.prescale (arg 7 17))) ∧
    when 8 (arg 4 3 = 7) (.chanWrite c (arg 0 4) (.stream (arg 7 1))) ∧
    when 9 (arg 4 3 = 0) (.chanRead c (arg 0 4) .setup) ∧
    when 9 (arg 4 3 = 1) (.chanRead c (arg 0 4) .scale) ∧
    when 9 (arg 4 3 = 2) (.chanRead c (arg 0 4) .state) ∧
    when 9 (arg 4 3 = 3) (.chanRead c (arg 0 4) .counts) ∧
    when 9 (arg 4 3 = 4) (.chanRead c (arg 0 4) .last) ∧
    when 9 (arg 4 3 = 5) (.chanRead c (arg 0 4) .lastFine) ∧
    when 9 (6 ≤ arg 4 3) (.chanRead c (arg 0 4) (.other (arg 4 3))) ∧
    when 10 (arg 0 4 < 8) (.loadOpen c (.lin (arg 0 4)) (arg 4 8) (arg 12 7)) ∧
    when 10 (arg 0 4 = 8) (.loadOpen c .map (arg 4 8) (arg 12 7)) ∧
    when 10 (arg 0 4 = 9) (.loadOpen c .plan (arg 4 8) (arg 12 7)) ∧
    when 10 (10 ≤ arg 0 4) (.loadOpen c (.other (arg 0 4)) (arg 4 8) (arg 12 7)) ∧
    is 11 (.loadData c ([BitVec.ofNat 16 (arg 0 16), BitVec.ofNat 16 (arg 16 16),
      BitVec.ofNat 16 (arg 32 16)].take high)) ∧
    is 12 (.loadCommit c) ∧ is 13 (.loadCancel c) ∧
    when 14 (arg 0 4 < 8) (.tableRead c (.lin (arg 0 4)) (arg 4 9)) ∧
    when 14 (arg 0 4 = 8) (.tableRead c .histogram (arg 4 9)) ∧
    when 14 (9 ≤ arg 0 4) (.tableRead c (.other (arg 0 4)) (arg 4 9)) ∧
    is 15 (.calRun c (arg 0 3) (arg 3 4) (arg 7 5) (arg 12 16) (arg 28 8)) ∧ is 16 (.calCancel c) ∧
    when 17 (arg 3 4 = 0) (.slotSet c (arg 0 3) (.kind (arg 7 2))) ∧
    when 17 (arg 3 4 = 1) (.slotSet c (arg 0 3) (.endpointA (arg 7 4) (arg 11 2))) ∧
    when 17 (arg 3 4 = 2) (.slotSet c (arg 0 3)
      (.endpointB (decide (arg 7 1 = 1)) (arg 8 4) (arg 12 2))) ∧
    when 17 (arg 3 4 = 3 ∧ arg 7 2 = 0) (.slotSet c (arg 0 3) (.armSource .immediate)) ∧
    when 17 (arg 3 4 = 3 ∧ arg 7 2 = 1) (.slotSet c (arg 0 3) (.armSource .atTime)) ∧
    when 17 (arg 3 4 = 3 ∧ arg 7 2 = 2)
      (.slotSet c (arg 0 3) (.armSource (.armEdge (arg 9 4) (arg 13 2)))) ∧
    when 17 (arg 3 4 = 3 ∧ arg 7 2 = 3) (.slotSet c (arg 0 3) (.armSource (.other 3))) ∧
    when 17 (arg 3 4 = 4 ∧ arg 7 2 = 0) (.slotSet c (arg 0 3) (.gateMode .timed)) ∧
    when 17 (arg 3 4 = 4 ∧ arg 7 2 = 1)
      (.slotSet c (arg 0 3) (.gateMode (.external (arg 9 4) (arg 13 1)))) ∧
    when 17 (arg 3 4 = 4 ∧ arg 7 2 = 2) (.slotSet c (arg 0 3) (.gateMode (.plan (arg 9 6)))) ∧
    when 17 (arg 3 4 = 4 ∧ arg 7 2 = 3) (.slotSet c (arg 0 3) (.gateMode .openEnded)) ∧
    when 17 (arg 3 4 = 5) (.slotSet c (arg 0 3) (.gateLength (arg 7 41))) ∧
    when 17 (arg 3 4 = 6) (.slotSet c (arg 0 3) (.repeats (arg 7 16))) ∧
    when 17 (arg 3 4 = 7) (.slotSet c (arg 0 3) (.samples (arg 7 16))) ∧
    when 17 (arg 3 4 = 8) (.slotSet c (arg 0 3) (.restart (arg 7 1))) ∧
    when 17 (arg 3 4 = 9) (.slotSet c (arg 0 3) (.sharedEdge (arg 7 1))) ∧
    when 17 (arg 3 4 = 10) (.slotSet c (arg 0 3) (.closeTimeout (arg 7 32))) ∧
    when 17 (arg 3 4 = 11) (.slotSet c (arg 0 3) (.report (arg 7 1))) ∧
    when 17 (12 ≤ arg 3 4) (.slotSet c (arg 0 3) (.other (arg 3 4))) ∧
    when 18 (arg 3 3 = 0) (.slotGet c (arg 0 3) .setup) ∧
    when 18 (arg 3 3 = 1) (.slotGet c (arg 0 3) .gating) ∧
    when 18 (arg 3 3 = 2) (.slotGet c (arg 0 3) .counts) ∧
    when 18 (arg 3 3 = 3) (.slotGet c (arg 0 3) .state) ∧
    when 18 (arg 3 3 = 4) (.slotGet c (arg 0 3) (.result (arg 6 3))) ∧
    when 18 (5 ≤ arg 3 3) (.slotGet c (arg 0 3) (.other (arg 3 3))) ∧
    is 19 (.arm c (arg 0 3)) ∧ is 20 (.armAt c (high * 2 + arg 0 1) (arg 1 47)) ∧
    is 21 (.stop c (arg 0 3)) ∧ is 22 (.hold c (arg 0 3)) ∧ is 23 (.resume c (arg 0 3)) ∧
    when 24 (arg 2 2 = 0 ∧ arg 4 3 = 0) (.markSetSource c (arg 0 2) .off) ∧
    when 24 (arg 2 2 = 0 ∧ arg 4 3 = 1) (.markSetSource c (arg 0 2) .level) ∧
    when 24 (arg 2 2 = 0 ∧ arg 4 3 = 2) (.markSetSource c (arg 0 2) (.gate (arg 7 3))) ∧
    when 24 (arg 2 2 = 0 ∧ arg 4 3 = 3) (.markSetSource c (arg 0 2) (.armed (arg 7 3))) ∧
    when 24 (arg 2 2 = 0 ∧ arg 4 3 = 4) (.markSetSource c (arg 0 2) (.done (arg 7 3))) ∧
    when 24 (arg 2 2 = 0 ∧ arg 4 3 = 5)
      (.markSetSource c (arg 0 2) (.step (arg 7 3) (arg 10 2))) ∧
    when 24 (arg 2 2 = 0 ∧ arg 4 3 = 6) (.markSetSource c (arg 0 2) (.divider (arg 7 4))) ∧
    when 24 (arg 2 2 = 0 ∧ arg 4 3 = 7) (.markSetSource c (arg 0 2) (.timebase (arg 7 33))) ∧
    when 24 (arg 2 2 = 1) (.markSetInvert c (arg 0 2) (arg 4 1)) ∧
    when 24 (arg 2 2 = 2) (.markSetWidth c (arg 0 2) (arg 4 16)) ∧
    is 25 (.markLevel c (arg 0 2) (arg 2 1)) ∧ is 26 (.queueSet c (arg 0 10)) ∧
    (27 ≤ code → is code (.unknownCommand c code))

/-! ## Taking a command -/

/-- A broadcast command is taken and judged as an addressed one and has the same effect, but its cell is
relayed and its reply is not queued (R158, R165). NAME is the exception, refused STATE by broadcast
(`Obligations.NameAndModeSetTheNode`). `d` is the same command in a cell that addresses the part, whose reply
queue has room for it. A broadcast command is never discarded for want of that room (R166): the last clauses
say so of one command each that sets the node, a channel, a slot and the Result Queue. -/
def Obligations.BroadcastActsAsAddressed : Prop :=
  (∀ (i : Instr) (code : Nat) (c d : Cell) (s : State), i.command? = some (code, c) → code ≠ 0 →
    Receiving s → cellNode c = 15 → Takes s d →
    ∃ t : State, exec (i.withCell d) s = .next t ∧
      exec i s = .next { t with
        link := { t.link with slots := s.link.slots ++ [.relay c] }
        command := { t.command with replies := t.command.replies.dropLast } }) ∧
  ∀ (c : Cell) (s : State), Receiving s → cellNode c = 15 → s.command.load.phase ≠ .opened →
    8 ≤ s.command.replies.length →
    (s.node.state ≠ .unnamed → exec (.mode c 2) s =
      .next (relayed c { s with node := { s.node with state := .bypass } })) ∧
    (∀ n : Fin 16, exec (.chanWrite c n (.stream 1)) s = .next (relayed c
      { s with
        channels :=
          s.channels.set n
            { s.channels.get n with set := { (s.channels.get n).set with stream := true } } })) ∧
    (∀ n : Fin 8, (s.slots.get n).state = .idle → exec (.slotSet c n (.repeats 0)) s = .next (relayed c
      { s with
        slots :=
          s.slots.set n
            { s.slots.get n with config := { (s.slots.get n).config with repeats := 0 } } })) ∧
    ∀ n, 1 ≤ n → n ≤ 512 → exec (.queueSet c n) s =
      .next (relayed c { s with results := { s.results with threshold := n } })

/-- An addressed command that finds 8 replies queued is discarded unexecuted, without a reply, and
REPLY-LOST is raised with its tag and command code; an OPEN load goes on (R166). That NODE-RESET is among
them, which R177 says is never refused, is the model's reading (log entry 15). -/
def Obligations.FullReplyQueueDiscardsCommands : Prop :=
  ∀ (i : Instr) (code : Nat) (c : Cell) (s : State), i.command? = some (code, c) →
    Receiving s → Addresses s c → 8 ≤ s.command.replies.length →
    exec i s = .next (raise .replyLost [num 8 (cellTag c).toNat, num 6 code] (consumed s))

/-- A command for another node is relayed and not taken (R158); in CONFIRMING a data-form cell returns
the receiver to HUNT, and in HUNT and while RESETn is low no cell is decoded (R156, R177). -/
def Obligations.CellsThatThePartDoesNotTake : Prop :=
  (∀ (i : Instr) (code : Nat) (c : Cell) (s : State), i.command? = some (code, c) →
    Receiving s → ¬ Addresses s c → cellNode c ≠ 15 → NodeSound s.node →
    exec i s = .next (relayed c s)) ∧
  ∀ (i : Instr) (c : Cell) (s : State), i.cell? = some c →
    (s.held = true ∨ s.link.align = .hunt → exec i s = .next s) ∧
    (s.held = false → s.link.align = .confirming →
      exec i s = .next { s with link := { s.link with align := .hunt } })

/-- While the buffer is OPEN, a command taken that is none of the load commands, STATUS and NODE-RESET
abandons the load first: the buffer becomes EMPTY and LOAD is raised with the load's target, its words
received and the command's code. The command is then carried out against the empty buffer (R176), whose other
fields are 0 and target LIN 0 by the model's reading (log entry 16). -/
def Obligations.OtherCommandsAbandonAnOpenLoad : Prop :=
  ∀ (i : Instr) (code : Nat) (c : Cell) (s : State), i.command? = some (code, c) →
    Receiving s → s.command.load.phase = .opened →
    (Addresses s c ∧ s.command.replies.length < 8) ∨ cellNode c = 15 →
    code ∉ [3, 4, 10, 11, 12, 13] →
    exec i s =
      exec i (raise .load
        [num 4 s.command.load.target.code, num 7 s.command.load.words.length, num 6 code]
        { s with command := { s.command with load := .reset } })

/-! ## The node and the Command Unit -/

/-- NAME takes an address in 1..14 and makes the node ACTIVE, MODE changes a named node between ACTIVE
and BYPASS; each is refused, with no effect, as R167 states. The replies carry the node state and the
address after the command; that the refusals RANGE and STATE carry them is the model's reading (log entry
17). -/
def Obligations.NameAndModeSetTheNode : Prop :=
  (∀ (c : Cell) (a : Nat) (s : State), TakesQuietly s c →
    (1 ≤ a ∧ a ≤ 14 →
      exec (.name c a) s = .next (replied c .done [num 2 1, num 4 a]
        { consumed s with node := { address := a, state := .active } })) ∧
    (a = 0 ∨ 15 ≤ a →
      exec (.name c a) s = .next (replied c .range s.node.fields (consumed s)))) ∧
  (∀ (c : Cell) (a : Nat) (s : State), Receiving s → cellNode c = 15 →
    s.command.load.phase ≠ .opened → exec (.name c a) s = .next (relayed c s)) ∧
  ∀ (c : Cell) (m : Nat) (s : State), TakesQuietly s c →
    (m ≠ 1 → m ≠ 2 → exec (.mode c m) s = .next (replied c .range s.node.fields (consumed s))) ∧
    (m = 1 ∨ m = 2 → s.node.state = .unnamed →
      exec (.mode c m) s = .next (replied c .state s.node.fields (consumed s))) ∧
    (s.node.state ≠ .unnamed →
      exec (.mode c 1) s = .next (replied c .done [num 2 1, num 4 s.node.address]
        { consumed s with node := { s.node with state := .active } }) ∧
      exec (.mode c 2) s = .next (replied c .done [num 2 2, num 4 s.node.address]
        { consumed s with node := { s.node with state := .bypass } }))

/-- IDENT and STATUS report and change nothing but the reply queue (R168, R171); an item that is none of
those listed is refused RANGE. The model's own (notes/assumptions/9.md): the widths of IDENT's numbers, and
the 8, 7 and 7 bits in which STATUS LOAD reports first index, count and words received for every target. -/
def Obligations.IdentAndStatusReport : Prop :=
  (∀ (c : Cell) (s : State), TakesQuietly s c →
    exec (.ident c 0) s =
      .next (replied c .done [num 12 0x0E16, num 1 1] (consumed s)) ∧
    exec (.ident c 1) s =
      .next (replied c .done [num 5 16, num 4 8, num 4 8, num 7 64] (consumed s)) ∧
    exec (.ident c 2) s =
      .next (replied c .done [num 9 256, num 10 512, num 8 128] (consumed s)) ∧
    ∀ n, 3 ≤ n → exec (.ident c n) s = .next (replied c .range [] (consumed s))) ∧
  ∀ (c : Cell) (s : State), Takes s c →
    exec (.status c .flags) s = .next (replied c .done
      ((List.finRange 12).map (fun k => bit (s.command.attns.get k).flag) ++
        (List.finRange 12).map (fun k => bit (s.command.attns.get k).enable) ++
        (List.finRange 12).map (fun k => bit (s.command.attns.get k).notice) ++
        [bit s.command.mute]) (consumed s)) ∧
    exec (.status c .node) s = .next (replied c .done
      ([num 2 s.node.state.code, num 4 s.node.address, num 2 s.link.align.code,
        num 16 s.link.errors] ++
        (List.finRange 4).map fun m => num 1 (s.markers.get m).pin.code) (consumed s)) ∧
    exec (.status c .queue) s = .next (replied c .done
      [num 10 s.results.occupancy, num 16 s.results.gaps, bit s.results.gapLimit,
        num 10 s.results.threshold] (consumed s)) ∧
    exec (.status c .load) s = .next (replied c .done
      [num 2 s.command.load.phase.code, num 4 s.command.load.target.code,
        num 8 s.command.load.first, num 7 s.command.load.count,
        num 7 s.command.load.words.length] (consumed s)) ∧
    exec (.status c .tables) s = .next (replied c .done
      ((List.finRange 8).map fun t => num 2 (s.tables.get t).phase.code) (consumed s)) ∧
    ∀ n, exec (.status c (.other n)) s = .next (replied c .range [] (consumed s))

/-- CLEAR clears the flags of the kinds it names, takes them out of the pending-notice set and on
request clears the link error count; ATTN-SET replaces the enables, notice bits and mute, and a kind
whose notice bit is off leaves the set (R172). Bit 0 of a mask from its most significant end is LINK. -/
def Obligations.ClearAndAttnSet : Prop :=
  (∀ (c : Cell) (mask : BitVec 12) (errors : Bool) (s : State), TakesQuietly s c →
    ∃ attns : Bank Attn 12,
      (∀ k : Fin 12, attns.get k =
        if mask.getMsbD k.val then { s.command.attns.get k with flag := false }
        else s.command.attns.get k) ∧
      exec (.clear c mask errors) s = .next (replied c .done
        ((List.finRange 12).map (fun k => bit (s.command.attns.get k).flag) ++
          [num 16 s.link.errors])
        { consumed s with
          link := { (consumed s).link with errors := if errors then 0 else s.link.errors }
          command :=
            { s.command with
              attns := attns
              notices := s.command.notices.filter fun k => !mask.getMsbD k.code.val } })) ∧
  ∀ (c : Cell) (enables notices : BitVec 12) (mute : Bool) (s : State), TakesQuietly s c →
    ∃ attns : Bank Attn 12,
      (∀ k : Fin 12, attns.get k =
        { s.command.attns.get k with
          enable := enables.getMsbD k.val, notice := notices.getMsbD k.val }) ∧
      exec (.attnSet c enables notices mute) s = .next (replied c .done
        ((List.finRange 12).map (fun k => bit (enables.getMsbD k.val)) ++
          (List.finRange 12).map (fun k => bit (notices.getMsbD k.val)) ++ [bit mute])
        { consumed s with
          command :=
            { s.command with
              attns := attns
              notices := s.command.notices.filter fun k => notices.getMsbD k.code.val
              mute := mute } })

/-- A raise acts by its kind's enable (R169): off, it has no effect; on, the flag is set with the
detail, and the kind joins the pending-notice set where its flag was clear and its notice bit is on, at
most once (R170). Nothing else changes. -/
def Obligations.RaiseActsByItsEnable : Prop :=
  ∀ (k : AttnKind) (d : List Field) (s : State),
    ((s.command.attns.get k.code).enable = false → raise k d s = s) ∧
    ((s.command.attns.get k.code).enable = true →
      raise k d s = { s with
        command :=
          { s.command with
            attns := s.command.attns.set k.code
              { s.command.attns.get k.code with flag := true, detail := d }
            notices :=
              if (s.command.attns.get k.code).flag = false ∧
                  (s.command.attns.get k.code).notice = true ∧ k ∉ s.command.notices then
                s.command.notices ++ [k]
              else s.command.notices } })

/-- A code of 27 to 63 is answered UNKNOWN and has no effect (R165). -/
def Obligations.UnknownCodesAreAnsweredUnknown : Prop :=
  ∀ (c : Cell) (code : Nat) (s : State), 27 ≤ code → code ≤ 63 → TakesQuietly s c →
    exec (.unknownCommand c code) s = .next (replied c .unknown [] (consumed s))

/-! ## The Timebase -/

/-- The end of a coarse period (R1, R13, R81): the count advances by one modulo 2^47, and with it marker
time and the frontier; the queue's entries up to the first one later than the frontier leave it, released one
after another (R82, `Obligations.ArrivalAtTheOrderingQueue`), and W then moves to the frontier where that is
later. W is so exactly the later of the frontier and the last released stamp or, with none released, the old
W. Slots and results are those that the releases and the moves of W leave. Link, node, map, channels, plan,
replies, load buffer and the waiting commands are unchanged; an active calibration's elapsed count advances
or its run ends. -/
def Obligations.PeriodEndAdvancesCountAndFrontier : Prop :=
  ∀ s : State, s.held = false → ∃ t : State, exec .timebaseAdvance s = .next t ∧
    t.timebase = { s.timebase with count := s.timebase.count + 1 } ∧
    t.markerTime = s.markerTime + 1 ∧
    (let f := t.timebase.frontier
    let out := s.queue.entries.takeWhile fun e => !later e.stamp f
    let kept := s.queue.entries.dropWhile fun e => !later e.stamp f
    let begun := refreshTimebaseMarkers (advanceCounts s)
    let after := moveMark f (out.foldl release { begun with queue := { s.queue with entries := kept } })
    t.queue.entries = kept ∧
    t.queue.mark =
      (out.map (·.stamp) ++ [f]).foldl (fun w x => if later x w then x else w) s.queue.mark ∧
    later f t.queue.mark = false ∧
    ((∀ e ∈ s.queue.entries, later e.stamp s.queue.mark = true) → later f s.queue.mark = true →
      t.queue.mark = f) ∧
    ((∀ e ∈ s.queue.entries, later e.stamp f = true) → later f s.queue.mark = false →
      t.queue.mark = s.queue.mark) ∧
    t.slots = after.slots ∧ t.results = after.results) ∧
    (s.cal.active = true → t.cal.active = true →
      t.cal = { s.cal with elapsed := s.cal.elapsed + 1 }) ∧
    (s.cal.active = false → t.cal = s.cal) ∧
    t.pending = s.pending ∧ t.held = s.held ∧ t.link = s.link ∧ t.node = s.node ∧
    t.map = s.map ∧ t.channels = s.channels ∧ t.plan = s.plan ∧
    t.command.replies = s.command.replies ∧ t.command.load = s.command.load ∧
    t.command.mute = s.command.mute

/-- In UNSET an EPOCH cell loads the count with E + trim, whatever it is; in SET a target that differs
from the count by more than one loads it too, with the offset held to −32768..32767 (R7, R8, R9, R10).
Either is a step (R11): every slot is IDLE, the Ordering Queue is empty with W at the new frontier, and
every channel's last accepted stamp is absent and its phase 0. EPOCH is raised with detail LOADED or STEP, 0
or 1 by the model's coding (log entry 9); the TIMEBASE markers take their requests from the new count (R150);
and the EPOCH-STEP records are offered in ascending slot number (R109, R112). Such a record carries the index of
the gate in hand, the sequence number, the run flags gathered with EPOCH-STEP (and SATURATED with the index at
its limit, R126), and the zero fields of R130 (`zeroBody`: P with zeros for RATE, zeros for INTERVAL and
TOTAL). A slot that ends keeps its gate index by the model's reading (log entry 32). -/
def Obligations.EpochCellsLoadOrStepTheCount : Prop :=
  ∀ (c : Cell) (e : Coarse) (s : State), Receiving s →
    (s.timebase.epoch = .unset ∨
      ¬ (-1 ≤ coarseDiff (e + s.timebase.trim.setWidth 47) s.timebase.count ∧
        coarseDiff (e + s.timebase.trim.setWidth 47) s.timebase.count ≤ 1)) →
    ∃ t : State, exec (.epochCell c e) s = .next t ∧
      t.timebase.count = e + s.timebase.trim.setWidth 47 ∧ t.timebase.epoch = .set ∧
      t.timebase.trim = s.timebase.trim ∧ t.timebase.horizon = s.timebase.horizon ∧
      (s.timebase.epoch = .unset → t.timebase.outcome = .loaded ∧ t.timebase.offset = 0) ∧
      (s.timebase.epoch = .set → t.timebase.outcome = .step ∧
        t.timebase.offset =
          max (-32768) (min 32767
            (coarseDiff (e + s.timebase.trim.setWidth 47) s.timebase.count))) ∧
      t.queue = { entries := [], mark := t.timebase.frontier } ∧
      (∀ i,
        let x := s.slots.get i
        let r : Record :=
          { slot := i, gateIndex := x.run.gateIndex, seq := x.seq, values := false
            flags :=
              { x.run.flags with
                epochStep := true
                saturated := x.run.flags.saturated || decide (x.run.gateIndex = 2 ^ 32 - 1) }
            body := zeroBody x }
        (x.state = .idle → t.slots.get i = x) ∧
        (x.state ≠ .idle → t.slots.get i = { x with
          state := .idle, seq := x.seq + 1, retained := some r
          run :=
            { Run.empty with
              gateIndex := min (2 ^ 32 - 1) (x.run.gateIndex + 1 + x.run.passed) } })) ∧
      (∀ n, (t.channels.get n).set = (s.channels.get n).set ∧
        (t.channels.get n).status =
          { (s.channels.get n).status with last := none, phase := 0 }) ∧
      ((s.command.attns.get AttnKind.epoch.code).enable = true →
        (t.command.attns.get AttnKind.epoch.code).flag = true ∧
        (t.command.attns.get AttnKind.epoch.code).detail =
          [num 1 (if s.timebase.epoch = .unset then 0 else 1)]) ∧
      (∀ m p, (s.markers.get m).source = .timebase p → (t.markers.get m).source = .timebase p ∧
        (t.markers.get m).request = decide (t.timebase.count.toNat % p < p / 2)) ∧
      t.results = ((List.finRange 8).foldl (fun u i =>
        match decide ((s.slots.get i).state ≠ .idle) && (s.slots.get i).config.report,
            (t.slots.get i).retained with
        | true, some r => offer (.result r) u
        | _, _ => u) s).results ∧
      t.link = (relayed c s).link ∧ t.pending = s.pending ∧ t.node = s.node ∧ t.map = s.map ∧
      t.tables = s.tables ∧ t.cal = s.cal ∧ t.plan = s.plan ∧ t.markerTime = s.markerTime ∧
      t.command.replies = s.command.replies ∧ t.command.load = s.command.load

/-- In SET an EPOCH cell whose target lies within one of the count is a CONFIRM: it is relayed, and only
the last-epoch record changes (R7, R9, R10). -/
def Obligations.EpochConfirmChangesOnlyTheRecord : Prop :=
  ∀ (c : Cell) (e : Coarse) (s : State), Receiving s → s.timebase.epoch = .set →
    -1 ≤ coarseDiff (e + s.timebase.trim.setWidth 47) s.timebase.count →
    coarseDiff (e + s.timebase.trim.setWidth 47) s.timebase.count ≤ 1 →
    exec (.epochCell c e) s = .next { relayed c s with
      timebase :=
        { s.timebase with
          outcome := .confirm
          offset := coarseDiff (e + s.timebase.trim.setWidth 47) s.timebase.count } }

/-- TIME-SET (R14, R15): TRIM sets the trim or is refused RANGE; REPORT and COUNT change nothing;
HORIZON is refused RANGE outside 256..65535 and IN_USE while a slot is not IDLE; a larger horizon moves
nothing but H. A smaller one is one frontier advance (R81): the entries up to the first one later than the
new frontier leave the queue, released one after another (R82, `Obligations.ArrivalAtTheOrderingQueue`), and
W then moves to the frontier where that is later. Results and markers are those that the releases leave, so
stamp streams and DIVIDER markers receive the released edges. -/
def Obligations.TimeSetCommands : Prop :=
  ∀ (c : Cell) (n : Nat) (s : State), TakesQuietly s c →
    (n ≤ 1023 → exec (.timeSetTrim c n) s =
      .next (replied c .done
        [num 16 s.timebase.horizon, num 10 n, num 1 s.timebase.epoch.code,
          num 2 s.timebase.outcome.code, signed 16 s.timebase.offset]
        { consumed s with timebase := { s.timebase with trim := BitVec.ofNat 10 n } })) ∧
    (1024 ≤ n → exec (.timeSetTrim c n) s =
      .next (replied c .range s.timebase.report (consumed s))) ∧
    exec (.timeSetReport c) s = .next (replied c .done s.timebase.report (consumed s)) ∧
    exec (.timeSetCount c) s =
      .next (replied c .done [num 47 s.timebase.count.toNat] (consumed s)) ∧
    (n < 256 ∨ 65535 < n → exec (.timeSetHorizon c n) s =
      .next (replied c .range s.timebase.report (consumed s))) ∧
    (256 ≤ n → n ≤ 65535 → (∃ i, (s.slots.get i).state ≠ .idle) →
      exec (.timeSetHorizon c n) s =
        .next (replied c .inUse s.timebase.report (consumed s))) ∧
    (256 ≤ n → n ≤ 65535 → (∀ i, (s.slots.get i).state = .idle) →
      let after := { s.timebase with horizon := n }
      (s.timebase.horizon ≤ n → exec (.timeSetHorizon c n) s =
        .next (replied c .done after.report { consumed s with timebase := after })) ∧
      (n < s.timebase.horizon → ∃ t : State, exec (.timeSetHorizon c n) s = .next t ∧
        (let f := after.frontier
        let out := s.queue.entries.takeWhile fun e => !later e.stamp f
        let kept := s.queue.entries.dropWhile fun e => !later e.stamp f
        let begun : State :=
          { consumed s with timebase := after, queue := { s.queue with entries := kept } }
        t = replied c .done after.report (moveMark f (out.foldl release begun)) ∧
        t.timebase = after ∧ t.queue.entries = kept ∧
        t.queue.mark =
          (out.map (·.stamp) ++ [f]).foldl (fun w x => if later x w then x else w) s.queue.mark ∧
        later f t.queue.mark = false ∧
        t.results = (moveMark f (out.foldl release begun)).results ∧
        t.markers = (moveMark f (out.foldl release begun)).markers) ∧
        t.slots = s.slots ∧
        t.command.replies = s.command.replies ++ [⟨cellTag c, .done, after.report⟩] ∧
        t.pending = s.pending ∧ t.link = (consumed s).link ∧ t.node = s.node ∧ t.map = s.map ∧
        t.channels = s.channels ∧ t.tables = s.tables ∧ t.cal = s.cal ∧ t.plan = s.plan ∧
        t.markerTime = s.markerTime))

/-! ## Edges: capture, channel and Ordering Queue -/

/-- The Capture Map decides by the slice's lane (R18 to R21): in BYPASS or under PASS an EDGE cell is
relayed and changes nothing else; under TAKE and COPY of a disabled channel the edge is discarded at the
channel's entry, the cell consumed or relayed as the action states. -/
def Obligations.EdgesPassedByOrDiscardedAtEntry : Prop :=
  ∀ (c : Cell) (slice : Fin 32) (lane : Fin 4) (sense : Sense) (k : BitVec 16) (fine : Fin 256)
    (lost : Bool) (index : Fin 128) (s : State), Receiving s →
    index.val = slice.val * 4 + lane.val →
    (s.node.state = .bypass ∨ (s.map.get index).action = .pass →
      exec (.edgeCell c slice lane sense k fine lost) s = .next (relayed c s)) ∧
    (s.node.state ≠ .bypass → (s.channels.get (s.map.get index).channel).set.enable = false →
      ((s.map.get index).action = .take →
        exec (.edgeCell c slice lane sense k fine lost) s = .next (consumed s)) ∧
      ((s.map.get index).action = .copy →
        exec (.edgeCell c slice lane sense k fine lost) s = .next (relayed c s)))

/-- The path of an edge through its enabled channel (R34 to R43): the label, the level and the source-gap
flag; the sense filter; the calibration's count of an edge of its source channel; the order check with
ORDER raised; holdoff; prescale; and an edge that passes them all arrives at the Ordering Queue
(`Obligations.ArrivalAtTheOrderingQueue`). The stamp is (full coarse count × 4096 + fraction − deskew) mod
2^59 (R39), formed from the count, epoch state and table as they stood at the arrival. -/
def Obligations.PathOfAnEdgeThroughItsChannel : Prop :=
  ∀ (c : Cell) (slice : Fin 32) (lane : Fin 4) (sense : Sense) (k : BitVec 16) (fine : Fin 256)
    (lost : Bool) (index : Fin 128) (s : State), Receiving s →
    index.val = slice.val * 4 + lane.val → s.node.state ≠ .bypass →
    (s.map.get index).action ≠ .pass →
    let ch := (s.map.get index).channel
    let g := (s.channels.get ch).set
    g.enable = true →
    let label : Sense := if g.invert then (if sense = .rise then .fall else .rise) else sense
    let st : ChanStatus :=
      { (s.channels.get ch).status with
        sourceGap := (s.channels.get ch).status.sourceGap || lost
        level := if label = .rise then .high else .low }
    let fraction := (s.tables.get g.table).lookup fine
    let stamp : Stamp :=
      BitVec.ofNat 59 ((extendCoarse s.timebase.count k).toNat * 4096 + fraction.1.toNat) -
        g.deskew.signExtend 59
    let entered := if (s.map.get index).action = .take then consumed s else relayed c s
    let counted := calibrationTap ch fine entered
    let leaves (t : State) (st : ChanStatus) : State :=
      { t with channels := s.channels.set ch { set := g, status := st } }
    let passes := g.sense = .both ∨ (g.sense = .rise ∧ label = .rise) ∨
      (g.sense = .fall ∧ label = .fall)
    (¬ passes → exec (.edgeCell c slice lane sense k fine lost) s = .next (leaves entered st)) ∧
    (passes → (∃ l, st.last = some l ∧ later stamp l = false) →
      exec (.edgeCell c slice lane sense k fine lost) s =
        .next (raise .order [num 4 ch.val]
          (leaves counted { st with orderFaults := min 65535 (st.orderFaults + 1) }))) ∧
    (passes → (∃ l, st.last = some l ∧ later stamp l = true ∧
        stampDiff stamp l < (g.holdoff.toNat * 4096 : Nat)) →
      exec (.edgeCell c slice lane sense k fine lost) s =
        .next (leaves counted { st with suppressed := min 65535 (st.suppressed + 1) })) ∧
    (passes → (∀ l, st.last = some l → later stamp l = true ∧
        (g.holdoff.toNat * 4096 : Nat) ≤ stampDiff stamp l) →
      (st.phase + 1 < g.prescale →
        exec (.edgeCell c slice lane sense k fine lost) s =
          .next (leaves counted { st with last := some stamp, phase := st.phase + 1 })) ∧
      (g.prescale ≤ st.phase + 1 →
        exec (.edgeCell c slice lane sense k fine lost) s =
          .next (arrive
            { channel := ch, sense := label, stamp := stamp
              marks :=
                { nominal := fraction.2, gap := lost
                  unepoched := decide (s.timebase.epoch = .unset) } }
            (leaves counted { st with last := some stamp, phase := 0 }))))

/-- Coarse extension gives an edge its slice's own coarse count back wherever that count lies between
61,440 periods before the timebase count and 4,095 after it (R26, R27). A table gives its entry in NOMINAL
and LOADED, 16c + 8 in UPDATING, marked nominal but in LOADED (R38, R52). -/
def Obligations.CoarseCountAndFractionOfAnEdge : Prop :=
  (∀ count own : Coarse, -4095 ≤ coarseDiff count own → coarseDiff count own ≤ 61440 →
    extendCoarse count (own.setWidth 16) = own) ∧
  ∀ (t : Table) (fine : Fin 256),
    (t.phase = .nominal → t.lookup fine = (t.entries.get fine, true)) ∧
    (t.phase = .loaded → t.lookup fine = (t.entries.get fine, false)) ∧
    ∀ n merged, t.phase = .updating n merged →
      (t.lookup fine).1.toNat = 16 * fine.val + 8 ∧ (t.lookup fine).2 = true

/-- A qualified edge at the Ordering Queue (R76, R78, R79, R80). Not later than W, it is dropped: LATE is
raised, and every running slot that references its channel records LATE-EDGE. Later than W it is held,
where there is room, behind every entry up to the first that it stands before. At 256 entries the first
candidate and those with its stamp are released, REORDER is raised once with its channel, every running slot
records it, and at most 256 entries remain. A release (R82) moves W to the edge's stamp where that is later,
each slot in ascending number taking the boundaries it reaches, and then delivers the edge: first its stamp
record, the stamp cut to 56 bits, where its channel streams (R135, R136); then once to each running slot that
references the channel, in ascending number (R83); and every DIVIDER marker of the channel toggles its
request (R84, R151). -/
def Obligations.ArrivalAtTheOrderingQueue : Prop :=
  (∀ (e : Edge) (s : State),
    (later e.stamp s.queue.mark = false →
      (arrive e s).queue = s.queue ∧ (arrive e s).command = (raise .late [num 4 e.channel.val] s).command ∧
      (arrive e s).results = s.results ∧
      ∀ i, (arrive e s).slots.get i =
        if (s.slots.get i).state ≠ .idle ∧ (s.slots.get i).references e.channel = true then
          { s.slots.get i with
            run :=
              { (s.slots.get i).run with
                flags := { (s.slots.get i).run.flags with lateEdge := true } } }
        else s.slots.get i) ∧
    (later e.stamp s.queue.mark = true → s.queue.entries.length < 256 →
      ∃ before after : List Edge, s.queue.entries = before ++ after ∧
        (∀ x ∈ before, beforeInQueue e x = false) ∧
        (∀ x, after.head? = some x → beforeInQueue e x = true) ∧
        arrive e s = { s with queue := { s.queue with entries := before ++ e :: after } }) ∧
    (later e.stamp s.queue.mark = true → s.queue.entries.length = 256 →
      ∃ (first : Edge) (others : List Edge), insertEdge e s.queue.entries = first :: others ∧
        (let out := first :: others.takeWhile fun x => x.stamp == first.stamp
        let kept := others.dropWhile fun x => x.stamp == first.stamp
        let after := out.foldl release { s with queue := { s.queue with entries := kept } }
        (arrive e s).queue.entries = kept ∧
        (arrive e s).queue.entries.length ≤ 256 ∧
        later first.stamp (arrive e s).queue.mark = false ∧
        (arrive e s).queue.mark =
          (if later first.stamp s.queue.mark then first.stamp else s.queue.mark) ∧
        (arrive e s).command = (raise .reorder [num 4 first.channel.val] after).command ∧
        ((s.command.attns.get AttnKind.reorder.code).enable = true →
          ((arrive e s).command.attns.get AttnKind.reorder.code).flag = true ∧
          ((arrive e s).command.attns.get AttnKind.reorder.code).detail =
            [num 4 first.channel.val]) ∧
        (arrive e s).results = after.results ∧ (arrive e s).markers = after.markers ∧
        (∀ i, (arrive e s).slots.get i =
          if (after.slots.get i).state ≠ .idle then
            { after.slots.get i with
              run :=
                { (after.slots.get i).run with
                  flags := { (after.slots.get i).run.flags with reorder := true } } }
          else after.slots.get i) ∧
        ∀ i, ((arrive e s).slots.get i).state ≠ .idle →
          ((arrive e s).slots.get i).run.flags.reorder = true))) ∧
  ∀ (e : Edge) (s : State),
    let moved := moveMark e.stamp s
    let offered :=
      if (s.channels.get e.channel).set.stream = true then
        offer (.stamp e.channel e.sense e.marks (BitVec.ofNat 56 e.stamp.toNat)) moved
      else moved
    let delivered := (List.finRange 8).foldl (fun u i =>
      let x := u.slots.get i
      if x.references e.channel = true then
        settleSlot (applySlot i (x.deliver i u.plan e) u) i
      else u) offered
    (later e.stamp s.queue.mark = false → moved = s) ∧
    (later e.stamp s.queue.mark = true → moved = (List.finRange 8).foldl settleSlot
      { s with queue := { s.queue with mark := e.stamp } }) ∧
    (release s e).queue.mark = (if later e.stamp s.queue.mark then e.stamp else s.queue.mark) ∧
    release s e = { delivered with markers := (release s e).markers } ∧
    ∀ k, (release s e).markers.get k =
      let m := delivered.markers.get k
      if m.source = .divider e.channel then
        let wanted : PinLevel := if m.request = m.invert then .high else .low
        if wanted = m.pin then { m with request := !m.request, resetHold := none }
        else if m.resetHold.getD (m.lastTransition + m.width) ≤ s.markerTime then
          { m with
            request := !m.request, pin := wanted, lastTransition := s.markerTime
            resetHold := none }
        else { m with request := !m.request }
      else m

/-! ## Channel Units -/

/-- CHAN-WRITE (R44, R45): refused RANGE or IN_USE with no effect; otherwise the one field takes the
value, with the field's effect on the status record: an enable from off and a changed invert make the
level UNKNOWN, and a write of prescale makes the phase 0. The stream field is never refused IN_USE. That a
refusal carries the field's value, and what it carries for a channel that does not exist, is the model's
reading (log entries 10 and 17). -/
def Obligations.ChanWriteSetsOneField : Prop :=
  ∀ (c : Cell) (n : Fin 16) (v : Nat) (d : Int) (s : State), TakesQuietly s c →
    let x := s.channels.get n
    let done (fs : List Field) (y : Channel) : Host.Outcome State Fault Refusal :=
      .next (replied c .done fs { consumed s with channels := s.channels.set n y })
    let still (a : ChanArg) (code : ReplyCode) (k : Nat) (value : List Field) : Prop :=
      exec (.chanWrite c n a) s = .next (replied c code ([num 4 n, num 3 k] ++ value) (consumed s))
    (inUse s n = false →
      exec (.chanWrite c n (.enable 0)) s =
        done [num 4 n, num 3 0, num 1 0] { x with set := { x.set with enable := false } } ∧
      exec (.chanWrite c n (.enable 1)) s =
        done [num 4 n, num 3 0, num 1 1]
          { set := { x.set with enable := true }
            status :=
              if x.set.enable then x.status else { x.status with level := .unknown } } ∧
      exec (.chanWrite c n (.sense 0)) s =
        done [num 4 n, num 3 1, num 2 0] { x with set := { x.set with sense := .rise } } ∧
      exec (.chanWrite c n (.sense 1)) s =
        done [num 4 n, num 3 1, num 2 1] { x with set := { x.set with sense := .fall } } ∧
      exec (.chanWrite c n (.sense 2)) s =
        done [num 4 n, num 3 1, num 2 2] { x with set := { x.set with sense := .both } } ∧
      (x.set.invert = false → exec (.chanWrite c n (.invert 1)) s =
        done [num 4 n, num 3 2, num 1 1]
          { set := { x.set with invert := true }, status := { x.status with level := .unknown } }) ∧
      (x.set.invert = true → exec (.chanWrite c n (.invert 1)) s =
        done [num 4 n, num 3 2, num 1 1] x) ∧
      (x.set.invert = true → exec (.chanWrite c n (.invert 0)) s =
        done [num 4 n, num 3 2, num 1 0]
          { set := { x.set with invert := false }
            status := { x.status with level := .unknown } }) ∧
      (x.set.invert = false → exec (.chanWrite c n (.invert 0)) s =
        done [num 4 n, num 3 2, num 1 0] x) ∧
      (∀ t : Fin 8, exec (.chanWrite c n (.table t)) s =
        done [num 4 n, num 3 3, num 3 t] { x with set := { x.set with table := t } }) ∧
      (-1048576 ≤ d ∧ d ≤ 1048575 → exec (.chanWrite c n (.deskew d)) s =
        done [num 4 n, num 3 4, signed 21 d]
          { x with set := { x.set with deskew := BitVec.ofInt 21 d } }) ∧
      (v ≤ 65535 → exec (.chanWrite c n (.holdoff v)) s =
        done [num 4 n, num 3 5, num 16 v]
          { x with set := { x.set with holdoff := BitVec.ofNat 16 v } }) ∧
      (1 ≤ v ∧ v ≤ 65536 → exec (.chanWrite c n (.prescale v)) s =
        done [num 4 n, num 3 6, num 17 v]
          { set := { x.set with prescale := v }, status := { x.status with phase := 0 } })) ∧
    exec (.chanWrite c n (.stream 1)) s =
      done [num 4 n, num 3 7, num 1 1] { x with set := { x.set with stream := true } } ∧
    exec (.chanWrite c n (.stream 0)) s =
      done [num 4 n, num 3 7, num 1 0] { x with set := { x.set with stream := false } } ∧
    (inUse s n = true →
      (v ≤ 1 → still (.enable v) .inUse 0 [bit x.set.enable]) ∧
      (v ≤ 2 → still (.sense v) .inUse 1 [num 2 x.set.sense.code]) ∧
      (v ≤ 1 → still (.invert v) .inUse 2 [bit x.set.invert]) ∧
      (v ≤ 7 → still (.table v) .inUse 3 [num 3 x.set.table]) ∧
      (-1048576 ≤ d ∧ d ≤ 1048575 → still (.deskew d) .inUse 4 [num 21 x.set.deskew.toNat]) ∧
      (v ≤ 65535 → still (.holdoff v) .inUse 5 [num 16 x.set.holdoff.toNat]) ∧
      (1 ≤ v ∧ v ≤ 65536 → still (.prescale v) .inUse 6 [num 17 x.set.prescale])) ∧
    (2 ≤ v → still (.enable v) .range 0 [bit x.set.enable]) ∧
    (3 ≤ v → still (.sense v) .range 1 [num 2 x.set.sense.code]) ∧
    (2 ≤ v → still (.invert v) .range 2 [bit x.set.invert]) ∧
    (8 ≤ v → still (.table v) .range 3 [num 3 x.set.table]) ∧
    (d < -1048576 ∨ 1048575 < d → still (.deskew d) .range 4 [num 21 x.set.deskew.toNat]) ∧
    (65536 ≤ v → still (.holdoff v) .range 5 [num 16 x.set.holdoff.toNat]) ∧
    (v = 0 ∨ 65537 ≤ v → still (.prescale v) .range 6 [num 17 x.set.prescale]) ∧
    (2 ≤ v → still (.stream v) .range 7 [bit x.set.stream]) ∧
    still (.other v) .range v [] ∧
    ∀ ch, 16 ≤ ch → exec (.chanWrite c ch (.stream v)) s =
        .next (replied c .range [num 4 ch, num 3 7] (consumed s)) ∧
      exec (.chanWrite c ch (.prescale v)) s =
        .next (replied c .range [num 4 ch, num 3 6] (consumed s))

/-- CHAN-READ reports the items of Table 3-3 (R46, R47): COUNTS clears both counts and STATE the
source-gap flag after they are reported; the other items change nothing; an unknown item is refused
RANGE. -/
def Obligations.ChanReadReportsAndClears : Prop :=
  ∀ (c : Cell) (n : Fin 16) (s : State), TakesQuietly s c →
    let x := s.channels.get n
    exec (.chanRead c n .setup) s = .next (replied c .done
      [bit x.set.enable, num 2 x.set.sense.code, bit x.set.invert, num 3 x.set.table,
        bit x.set.stream, num 16 x.set.holdoff.toNat] (consumed s)) ∧
    exec (.chanRead c n .scale) s = .next (replied c .done
      [num 21 x.set.deskew.toNat, num 17 x.set.prescale] (consumed s)) ∧
    exec (.chanRead c n .state) s = .next (replied c .done
      [num 2 x.status.level.code, num 16 x.status.phase, bit x.status.sourceGap,
        bit x.status.last.isSome]
      { consumed s with
        channels := s.channels.set n { x with status := { x.status with sourceGap := false } } }) ∧
    exec (.chanRead c n .counts) s = .next (replied c .done
      [num 16 x.status.suppressed, num 16 x.status.orderFaults]
      { consumed s with
        channels :=
          s.channels.set n
            { x with status := { x.status with suppressed := 0, orderFaults := 0 } } }) ∧
    (x.status.last = none →
      exec (.chanRead c n .last) s =
        .next (replied c .done [num 1 0, num 47 0] (consumed s)) ∧
      exec (.chanRead c n .lastFine) s =
        .next (replied c .done [num 1 0, num 12 0, num 16 0] (consumed s))) ∧
    (∀ l, x.status.last = some l →
      exec (.chanRead c n .last) s =
        .next (replied c .done [num 1 1, num 47 (l.toNat / 4096)] (consumed s)) ∧
      exec (.chanRead c n .lastFine) s =
        .next (replied c .done
          [num 1 1, num 12 (l.toNat % 4096), num 16 (l.toNat / 4096 % 65536)] (consumed s))) ∧
    ∀ k, exec (.chanRead c n (.other k)) s = .next (replied c .range [] (consumed s))

/-! ## Staged loads -/

/-- LOAD-OPEN, LOAD-CANCEL, and a LOAD-COMMIT without a FULL buffer (R173, R175). LOAD-OPEN is judged
RANGE, then BUSY for the buffer, then BUSY for the table of a LIN target, and otherwise opens the buffer.
None of them abandons a load. The fields of an emptied buffer are 0 by the model's reading
(notes/assumptions/16.md). -/
def Obligations.LoadBufferOpensAndEmpties : Prop :=
  ∀ (c : Cell) (s : State), Takes s c →
    (∀ (a : LoadArg) (first count : Nat),
      ((∃ n, a = .lin n ∧ 8 ≤ n) ∨ ∃ n, a = .other n) →
      exec (.loadOpen c a first count) s = .next (replied c .range [] (consumed s))) ∧
    (∀ (a : LoadArg) (t : LoadTarget) (first count : Nat),
      ((∃ n : Fin 8, a = .lin n ∧ t = .lin n) ∨ (a = .map ∧ t = .map) ∨ (a = .plan ∧ t = .plan)) →
      let words := count * (if t = .plan then 3 else 1)
      let entries := if t = .plan then 64 else if t = .map then 128 else 256
      (count = 0 ∨ entries < first + count ∨ 64 < words →
        exec (.loadOpen c a first count) s = .next (replied c .range [] (consumed s))) ∧
      (1 ≤ count → first + count ≤ entries → words ≤ 64 →
        (s.command.load.phase ≠ .empty ∨ (∃ n, t = .lin n ∧ ¬ TableUnclaimed s n) →
          exec (.loadOpen c a first count) s = .next (replied c .busy [] (consumed s))) ∧
        (s.command.load.phase = .empty → (∀ n, t = .lin n → TableUnclaimed s n) →
          exec (.loadOpen c a first count) s = .next (replied c .done []
            { consumed s with
              command :=
                { s.command with
                  load :=
                    { phase := .opened, target := t, first := first, count := count
                      expected := words, words := [] } } })))) ∧
    exec (.loadCancel c) s = .next (replied c .done [num 7 s.command.load.words.length]
      { consumed s with
        command :=
          { s.command with
            load :=
              { phase := .empty, target := .lin 0, first := 0, count := 0, expected := 0
                words := [] } } }) ∧
    (s.command.load.phase ≠ .full →
      exec (.loadCommit c) s = .next (replied c .sequence [] (consumed s)))

/-- LOAD-DATA of 0 to 3 words appends them to an OPEN buffer in order; at the expected count the buffer
becomes FULL and the words left are dropped with RANGE; the reply carries the words taken and the total.
An EMPTY or FULL buffer refuses it SEQUENCE. No word is judged (R174). -/
def Obligations.LoadDataFillsTheBuffer : Prop :=
  ∀ (c : Cell) (words : List Word16) (s : State), Takes s c → words.length ≤ 3 →
    let l := s.command.load
    let room := l.expected - l.words.length
    let answer (code : ReplyCode) (taken : Nat) (m : LoadBuffer) : Host.Outcome State Fault Refusal :=
      .next (replied c code [num 2 taken, num 7 (l.words.length + taken)]
        { consumed s with command := { s.command with load := m } })
    (l.phase ≠ .opened →
      exec (.loadData c words) s = .next (replied c .sequence [] (consumed s))) ∧
    (l.phase = .opened → l.words.length < l.expected →
      (words.length < room →
        exec (.loadData c words) s =
          answer .done words.length { l with words := l.words ++ words }) ∧
      (words.length = room →
        exec (.loadData c words) s =
          answer .done room { l with words := l.words ++ words, phase := .full }) ∧
      (room < words.length →
        exec (.loadData c words) s =
          answer .range room { l with words := l.words ++ words.take room, phase := .full }))

/-- The commit of a MAP load (R23, R24, R25): the staged entries are laid over the stored map; CONFLICT
where two entries of the merged map claim one channel, else IN_USE where a changed entry's old or new
channel is in use, else DONE and the merged map at once. A refusal changes nothing. A staged word's action
stands in bits 5..4, PASS 0, TAKE 1, COPY 2, and its channel in bits 3..0; any other action is PASS with
channel 0. An accepted commit leaves the buffer EMPTY, its other fields 0 by the model's reading (log entry
16). -/
def Obligations.MapCommitChecksConflictThenInUse : Prop :=
  (∀ (c : Cell) (s : State), Takes s c → s.command.load.phase = .full →
    s.command.load.target = .map →
    ∃ merged : Bank MapEntry 128,
      (∀ i : Fin 128, merged.get i =
        if s.command.load.first ≤ i.val ∧
            i.val < s.command.load.first + s.command.load.words.length then
          mapEntryOf (s.command.load.words.getD (i.val - s.command.load.first) 0)
        else s.map.get i) ∧
      let held (e : MapEntry) : Prop := ∃ ch, e.claims ch = true ∧ inUse s ch = true
      let barred : Prop :=
        ∃ i, merged.get i ≠ s.map.get i ∧ (held (s.map.get i) ∨ held (merged.get i))
      (¬ MapSound merged →
        exec (.loadCommit c) s = .next (replied c .conflict [] (consumed s))) ∧
      (MapSound merged → barred →
        exec (.loadCommit c) s = .next (replied c .inUse [] (consumed s))) ∧
      (MapSound merged → ¬ barred →
        exec (.loadCommit c) s = .next (replied c .done []
          { consumed s with
            map := merged, command := { s.command with load := LoadBuffer.reset } }))) ∧
  (∀ w : Word16,
    (w.extractLsb' 4 2 = 0 → mapEntryOf w = ⟨.pass, (w.extractLsb' 0 4).toFin⟩) ∧
    (w.extractLsb' 4 2 = 1 → mapEntryOf w = ⟨.take, (w.extractLsb' 0 4).toFin⟩) ∧
    (w.extractLsb' 4 2 = 2 → mapEntryOf w = ⟨.copy, (w.extractLsb' 0 4).toFin⟩) ∧
    (w.extractLsb' 4 2 = 3 → mapEntryOf w = ⟨.pass, 0⟩)) ∧
  ∀ (s : State) (ch : Fin 16), inUse s ch = true ↔
    (∃ i, (s.slots.get i).state ≠ .idle ∧
      ((s.slots.get i).config.endpointA.channel = ch ∨
        (∃ e, (s.slots.get i).config.endpointB = some e ∧ e.channel = ch) ∨
        (∃ e, (s.slots.get i).config.armSource = .armEdge e ∧ e.channel = ch) ∨
        ∃ l, (s.slots.get i).config.gate = .external ch l)) ∨
    (s.cal.active = true ∧ s.cal.channel = ch)

/-- The commit of a LIN load (R53, R54, R55): the staged values are laid over the stored entries; SHAPE
with the lowest index that holds a value above 4095 or one less than the entry before it; otherwise
ACCEPTED, and the table is UPDATING to the merged table from period 0, its stored entries unchanged. The
buffer is then EMPTY, its other fields 0 by the model's reading (log entry 16). -/
def Obligations.LinCommitChecksTheShape : Prop :=
  ∀ (c : Cell) (t : Fin 8) (s : State), Takes s c → s.command.load.phase = .full →
    s.command.load.target = .lin t →
    let merged (i : Fin 256) : Nat :=
      if s.command.load.first ≤ i.val ∧
          i.val < s.command.load.first + s.command.load.words.length then
        (s.command.load.words.getD (i.val - s.command.load.first) 0).toNat
      else ((s.tables.get t).entries.get i).toNat
    let fails (i : Fin 256) : Prop :=
      4095 < merged i ∨ ∃ j : Fin 256, j.val + 1 = i.val ∧ merged i < merged j
    (∀ i, fails i → (∀ j, j < i → ¬ fails j) →
      exec (.loadCommit c) s = .next (replied c .shape [num 8 i.val] (consumed s))) ∧
    ((∀ i, ¬ fails i) → ∃ after : Entries, (∀ i, (after.get i).toNat = merged i) ∧
      exec (.loadCommit c) s = .next (replied c .accepted []
        { consumed s with
          tables := s.tables.set t { s.tables.get t with phase := .updating 0 after }
          command := { s.command with load := LoadBuffer.reset } }))

/-- The commit of a PLAN load (R115): RANGE where a staged step has length 0, an unknown action, or is
step 63 with NEXT; else IN_USE where a staged step is reachable from the current step of a running slot
whose gate mode is PLAN; else DONE and the staged steps at once. A refusal changes nothing. The last clause
gives the fields of a staged step's three words (R162) and the steps that are none. An accepted commit leaves
the buffer EMPTY, its other fields 0 by the model's reading (log entry 16). -/
def Obligations.PlanCommitKeepsReachableSteps : Prop :=
  (∀ (c : Cell) (s : State), Takes s c → LoadSound s.command.load → PlanSound s.plan →
    s.command.load.phase = .full → s.command.load.target = .plan →
    let first := s.command.load.first
    let count := s.command.load.count
    let word (k : Nat) : Word16 := s.command.load.words.getD k 0
    let staged (k : Nat) : Option PlanStep :=
      planStepOf (first + k) (word (3 * k)) (word (3 * k + 1)) (word (3 * k + 2))
    let held : Prop :=
      ∃ (i : Fin 8) (f n k : Fin 64), (s.slots.get i).state ≠ .idle ∧
        (s.slots.get i).config.gate = .plan f ∧ (s.slots.get i).run.planStep = some n ∧
        Relation.ReflTransGen (LeadsTo s.plan) n k ∧ first ≤ k.val ∧ k.val < first + count
    ((∃ k, k < count ∧ staged k = none) →
      exec (.loadCommit c) s = .next (replied c .range [] (consumed s))) ∧
    ((∀ k, k < count → staged k ≠ none) →
      (held → exec (.loadCommit c) s = .next (replied c .inUse [] (consumed s))) ∧
      (¬ held → ∃ plan : Bank PlanStep 64,
        (∀ i : Fin 64,
          (first ≤ i.val ∧ i.val < first + count → staged (i.val - first) = some (plan.get i)) ∧
          (i.val < first ∨ first + count ≤ i.val → plan.get i = s.plan.get i)) ∧
        exec (.loadCommit c) s = .next (replied c .done []
          { consumed s with
            plan := plan, command := { s.command with load := LoadBuffer.reset } })))) ∧
  ∀ (i : Nat) (w0 w1 w2 : Word16),
    let bits := w0.toNat * 2 ^ 32 + w1.toNat * 2 ^ 16 + w2.toNat
    let action := bits / 2 ^ 9 % 4
    let refused := bits / 2 ^ 16 = 0 ∨ action = 3 ∨ (i = 63 ∧ action = 0)
    (refused → planStepOf i w0 w1 w2 = none) ∧
    (¬ refused → ∃ p : PlanStep, planStepOf i w0 w1 w2 = some p ∧ p.length.toNat = bits / 2 ^ 16 ∧
      p.kind = (if bits / 2 ^ 15 % 2 = 0 then .measure else .wait) ∧
      p.markers.toNat = bits / 2 ^ 11 % 16 ∧
      (action = 0 → p.action = .next) ∧
      (action = 1 → ∃ n : Fin 64, p.action = .jump n ∧ n.val = bits / 2 ^ 3 % 64) ∧
      (action = 2 → p.action = .last))

/-! ## The Table Store and the Calibration Engine -/

/-- An update lasts 500 coarse periods (R55): at the end of each period its count advances, and at the
500th the table takes the merged entries, is LOADED, and TABLE is raised with its number. The row
TABLE_UPDATE_END takes that end in the last of those periods and has no effect before it: that it may
stand ahead of the period's own end is the model's choice (notes/assumptions/3.md). -/
def Obligations.UpdateLasts500Periods : Prop :=
  (∀ (s t : State) (n : Fin 8), s.held = false → exec .timebaseAdvance s = .next t →
    (∀ k merged, (s.tables.get n).phase = .updating k merged →
      (k + 1 < 500 →
        t.tables.get n =
          { phase := .updating (k + 1) merged, entries := (s.tables.get n).entries }) ∧
      (k + 1 = 500 →
        t.tables.get n = { phase := .loaded, entries := merged } ∧
        ((s.command.attns.get AttnKind.table.code).enable = true →
          (t.command.attns.get AttnKind.table.code).flag = true))) ∧
    ((s.tables.get n).isUpdating = false → t.tables.get n = s.tables.get n)) ∧
  ∀ (s : State) (n : Fin 8) (k : Nat) (merged : Entries), s.held = false →
    (s.tables.get n).phase = .updating k merged →
    (k + 1 = 500 → exec (.tableUpdateEnd n) s =
      .next (raise .table [num 3 n.val]
        { s with tables := s.tables.set n { phase := .loaded, entries := merged } })) ∧
    (k + 1 < 500 → exec (.tableUpdateEnd n) s = .next s)

/-- TABLE-READ (R58, R73): of LIN t the table's state and three entries, zero past index 255, BUSY while
the table is UPDATING; of HISTOGRAM a bin and the outcome, or a part of the run record; RANGE outside.
It changes nothing. -/
def Obligations.TableReadReports : Prop :=
  ∀ (c : Cell) (s : State), TakesQuietly s c →
    (∀ (t : Fin 8) (i : Fin 256),
      let x := s.tables.get t
      let entry (k : Nat) : Field :=
        if h : k < 256 then num 12 (x.entries.get ⟨k, h⟩).toNat else num 12 0
      (x.isUpdating = false → exec (.tableRead c (.lin t) i) s =
        .next (replied c .done
          [num 2 (if x.phase = .loaded then 2 else 0), entry i.val, entry (i.val + 1),
            entry (i.val + 2)] (consumed s))) ∧
      (x.isUpdating = true → exec (.tableRead c (.lin t) i) s =
        .next (replied c .busy [num 2 1, num 12 0, num 12 0, num 12 0] (consumed s)))) ∧
    (∀ t i, 8 ≤ t ∨ 256 ≤ i → exec (.tableRead c (.lin t) i) s =
      .next (replied c .range [] (consumed s))) ∧
    (∀ n i, exec (.tableRead c (.other n) i) s = .next (replied c .range [] (consumed s))) ∧
    (∀ i : Fin 256, exec (.tableRead c .histogram i) s =
      .next (replied c .done [num 21 (s.cal.bins.get i), num 3 s.cal.outcome.code] (consumed s))) ∧
    exec (.tableRead c .histogram 256) s = .next (replied c .done
      [num 3 s.cal.table, num 4 s.cal.channel, num 5 s.cal.k, num 3 s.cal.outcome.code]
      (consumed s)) ∧
    exec (.tableRead c .histogram 257) s = .next (replied c .done
      [num 21 s.cal.hits, num 16 (s.cal.elapsed / 250000)] (consumed s)) ∧
    exec (.tableRead c .histogram 258) s = .next (replied c .done
      [num 16 s.cal.timeout, num 8 s.cal.emptyLimit] (consumed s)) ∧
    exec (.tableRead c .histogram 259) s = .next (replied c .done
      [num 8 s.cal.emptyBins, num 13 s.cal.widestBin, num 8 s.cal.widestCode] (consumed s)) ∧
    ∀ i, 260 ≤ i → exec (.tableRead c .histogram i) s =
      .next (replied c .range [] (consumed s))

/-- CAL-RUN (R63, R64): RANGE, then BUSY, then STATE; otherwise ACCEPTED, and a run begins with every bin,
count and quality result 0. Each reply carries the table, channel and k as given. -/
def Obligations.CalRunStartsARun : Prop :=
  ∀ (c : Cell) (table channel k timeout limit : Nat) (s : State), TakesQuietly s c →
    let reply := [num 3 table, num 4 channel, num 5 k]
    let run := exec (.calRun c table channel k timeout limit) s
    (8 ≤ table ∨ 16 ≤ channel ∨ k < 12 ∨ 20 < k ∨ timeout = 0 ∨ 65535 < timeout ∨ 255 < limit →
      run = .next (replied c .range reply (consumed s))) ∧
    ∀ (t : Fin 8) (ch : Fin 16), table = t → channel = ch → 12 ≤ k → k ≤ 20 → 1 ≤ timeout →
      timeout ≤ 65535 → limit ≤ 255 →
      let busy : Prop :=
        s.cal.active = true ∨ (s.tables.get t).isUpdating = true ∨
          (s.command.load.phase = .full ∧ s.command.load.target = .lin t)
      let unfed : Prop :=
        (s.channels.get ch).set.enable = false ∨ ∀ i, (s.map.get i).claims ch = false
      (busy → run = .next (replied c .busy reply (consumed s))) ∧
      (¬ busy → unfed → run = .next (replied c .state reply (consumed s))) ∧
      (¬ busy → ¬ unfed → run = .next (replied c .accepted reply
        { consumed s with
          cal :=
            { active := true, table := t, channel := ch, k := k, timeout := timeout
              emptyLimit := limit, hits := 0, elapsed := 0, outcome := .running, emptyBins := 0
              widestBin := 0, widestCode := 0, bins := .fill 256 0 } }))

/-- A calibration run that ends early (R66, R69, R70, R71): CAL-CANCEL, and the time limit at the end of
the period in which the elapsed count reaches it. Each forms the quality results against the hits
gathered and raises CAL; no table changes. CAL-CANCEL of an idle engine is refused STATE. The row
CAL_TIMEOUT may take the expiry ahead of the period's own end, which is the model's choice
(notes/assumptions/3.md). -/
def Obligations.CalibrationEndsEarly : Prop :=
  (∀ (c : Cell) (s : State), TakesQuietly s c →
    (s.cal.active = true → ∃ empty widest code : Nat,
      QualityOf s.cal.bins s.cal.hits empty widest code ∧
      exec (.calCancel c) s = .next (replied c .done
        [num 21 s.cal.hits, num 16 (s.cal.elapsed / 250000)]
        (raise .cal [num 3 5, num 3 s.cal.table, num 8 empty, num 13 widest]
          { consumed s with
            cal :=
              { s.cal with
                active := false, outcome := .cancelled, emptyBins := empty, widestBin := widest
                widestCode := code } }))) ∧
    (s.cal.active = false → exec (.calCancel c) s =
      .next (replied c .state [num 3 s.cal.outcome.code] (consumed s)))) ∧
  ∀ s : State, s.held = false → s.cal.active = true →
    (s.cal.elapsed + 1 = s.cal.timeout * 250000 → ∃ empty widest code : Nat,
      QualityOf s.cal.bins s.cal.hits empty widest code ∧
      let ended : Calibration :=
        { s.cal with
          active := false, outcome := .failTimeout, elapsed := s.cal.elapsed + 1
          emptyBins := empty, widestBin := widest, widestCode := code }
      exec .calTimeout s =
        .next (raise .cal [num 3 4, num 3 s.cal.table, num 8 empty, num 13 widest]
          { s with cal := ended }) ∧
      ∃ t, exec .timebaseAdvance s = .next t ∧ t.cal = ended) ∧
    (s.cal.elapsed + 1 < s.cal.timeout * 250000 → exec .calTimeout s = .next s)

/-- The hits of a run (R65, R67, R68). An edge that the source channel offers adds 1 to its code's bin and
to the hits. At the L-th hit the run ends at once: entry c of the computed table is
min(4095, floor((2 × S(c) + h) × 4096 / (2 × L))); with more empty bins than the limit the outcome is
FAIL-EMPTY, otherwise DONE and the table is UPDATING to the computed one. CAL is raised. The row
CAL_COMPLETION ends a run that has its L hits in the same way, and otherwise has no effect: it meets such a
run only in a state that no run of the part reaches, by the model's reading (log entry 4). -/
def Obligations.CalibrationCompletesAtTheLastHit : Prop :=
  let ends (s : State) (t : State) : Prop :=
    ∃ (empty widest code : Nat) (after : Entries),
      QualityOf s.cal.bins (2 ^ s.cal.k) empty widest code ∧
      (∀ c : Fin 256, (after.get c).toNat =
        min 4095 ((2 * (s.cal.bins.cells.take c.val).sum + s.cal.bins.get c) * 4096 /
          (2 * 2 ^ s.cal.k))) ∧
      let g (o : CalOutcome) : Calibration :=
        { s.cal with
          active := false, outcome := o, emptyBins := empty, widestBin := widest
          widestCode := code }
      (s.cal.emptyLimit < empty →
        t = raise .cal [num 3 3, num 3 s.cal.table, num 8 empty, num 13 widest]
          { s with cal := g .failEmpty }) ∧
      (empty ≤ s.cal.emptyLimit →
        t = raise .cal [num 3 2, num 3 s.cal.table, num 8 empty, num 13 widest]
          { s with
            cal := g .done
            tables :=
              s.tables.set s.cal.table
                { s.tables.get s.cal.table with phase := .updating 0 after } })
  (∀ (s : State) (ch : Fin 16) (fine : Fin 256),
    let counted : State :=
      { s with
        cal :=
          { s.cal with
            bins := s.cal.bins.set fine (s.cal.bins.get fine + 1), hits := s.cal.hits + 1 } }
    (s.cal.active = false ∨ s.cal.channel ≠ ch → calibrationTap ch fine s = s) ∧
    (s.cal.active = true → s.cal.channel = ch →
      (s.cal.hits + 1 < 2 ^ s.cal.k → calibrationTap ch fine s = counted) ∧
      (s.cal.hits + 1 = 2 ^ s.cal.k → ends counted (calibrationTap ch fine s)))) ∧
  ∀ s : State, s.held = false →
    (s.cal.active = true → s.cal.hits = 2 ^ s.cal.k →
      ∃ t, exec .calCompletion s = .next t ∧ ends s t) ∧
    (s.cal.active = false ∨ s.cal.hits < 2 ^ s.cal.k → exec .calCompletion s = .next s)

/-! ## Measurement Slots -/

/-- SLOT-SET (R89): RANGE for a slot outside 0..7, a field that names none, or a value out of range; then
STATE where the slot is not IDLE; otherwise the one field takes the value. The reply carries the slot, the
field and the value that the field holds after the command. That a refusal carries it too is the model's
reading (log entry 17), and what it carries for a slot that does not exist is its choice (log entry 10). -/
def Obligations.SlotSetWritesOneField : Prop :=
  ∀ (c : Cell) (i : Fin 8) (s : State), TakesQuietly s c →
    let x := s.slots.get i
    let g := x.config
    let set (a : SlotArg) (code : Nat) (value : List Field) (after : SlotConfig) : Prop :=
      x.state = .idle → exec (.slotSet c i a) s = .next (replied c .done
        ([num 3 i.val, num 4 code] ++ value)
        { consumed s with slots := s.slots.set i { x with config := after } })
    let still (a : SlotArg) (rc : ReplyCode) (code : Nat) (value : List Field) : Prop :=
      exec (.slotSet c i a) s =
        .next (replied c rc ([num 3 i.val, num 4 code] ++ value) (consumed s))
    let endpointB : List Field :=
      match g.endpointB with
      | none => [num 1 0, num 6 0]
      | some e => [num 1 1, num 4 e.channel, num 2 e.sense.code]
    let armSource : List Field :=
      match g.armSource with
      | .immediate => [num 2 0]
      | .atTime => [num 2 1]
      | .armEdge e => [num 2 2, num 4 e.channel, num 2 e.sense.code]
    let gate : List Field :=
      match g.gate with
      | .timed => [num 2 0]
      | .external ch l => [num 2 1, num 4 ch, num 1 (if l = .high then 0 else 1)]
      | .plan f => [num 2 2, num 6 f]
      | .openEnded => [num 2 3]
    (∀ (v : Nat) (ch : Fin 16) (se : RefSense),
      set (.kind 0) 0 [num 2 0] { g with kind := .rate } ∧
      set (.kind 1) 0 [num 2 1] { g with kind := .interval } ∧
      set (.kind 2) 0 [num 2 2] { g with kind := .total } ∧
      set (.endpointA ch se.code) 1 [num 4 ch.val, num 2 se.code]
        { g with endpointA := ⟨ch, se⟩ } ∧
      set (.endpointB true ch se.code) 2 [num 1 1, num 4 ch.val, num 2 se.code]
        { g with endpointB := some ⟨ch, se⟩ } ∧
      set (.endpointB false v v) 2 [num 1 0, num 6 0] { g with endpointB := none } ∧
      set (.armSource .immediate) 3 [num 2 0] { g with armSource := .immediate } ∧
      set (.armSource .atTime) 3 [num 2 1] { g with armSource := .atTime } ∧
      set (.armSource (.armEdge ch se.code)) 3 [num 2 2, num 4 ch.val, num 2 se.code]
        { g with armSource := .armEdge ⟨ch, se⟩ } ∧
      set (.gateMode .timed) 4 [num 2 0] { g with gate := .timed } ∧
      set (.gateMode (.external ch 0)) 4 [num 2 1, num 4 ch.val, num 1 0]
        { g with gate := .external ch .high } ∧
      set (.gateMode (.external ch 1)) 4 [num 2 1, num 4 ch.val, num 1 1]
        { g with gate := .external ch .low } ∧
      (∀ n : Fin 64, set (.gateMode (.plan n)) 4 [num 2 2, num 6 n.val]
        { g with gate := .plan n }) ∧
      set (.gateMode .openEnded) 4 [num 2 3] { g with gate := .openEnded } ∧
      (1 ≤ v → v ≤ 2 ^ 40 → set (.gateLength v) 5 [num 41 v] { g with length := v }) ∧
      (v ≤ 65535 → set (.repeats v) 6 [num 16 v] { g with repeats := v }) ∧
      (1 ≤ v → v ≤ 65535 → set (.samples v) 7 [num 16 v] { g with samples := v }) ∧
      set (.restart 0) 8 [num 1 0] { g with restart := .keepFirst } ∧
      set (.restart 1) 8 [num 1 1] { g with restart := .takeLatest } ∧
      set (.sharedEdge 0) 9 [num 1 0] { g with shared := false } ∧
      set (.sharedEdge 1) 9 [num 1 1] { g with shared := true } ∧
      (1 ≤ v → v ≤ 2 ^ 32 - 1 →
        set (.closeTimeout v) 10 [num 32 v] { g with timeout := v }) ∧
      set (.report 0) 11 [num 1 0] { g with report := false } ∧
      set (.report 1) 11 [num 1 1] { g with report := true }) ∧
    (∀ (v ch se : Nat),
      (3 ≤ v → still (.kind v) .range 0 [num 2 g.kind.code]) ∧
      (16 ≤ ch ∨ 3 ≤ se →
        still (.endpointA ch se) .range 1 [num 4 g.endpointA.channel, num 2 g.endpointA.sense.code] ∧
        still (.endpointB true ch se) .range 2 endpointB ∧
        still (.armSource (.armEdge ch se)) .range 3 armSource) ∧
      still (.armSource (.other v)) .range 3 armSource ∧
      (16 ≤ ch ∨ 2 ≤ v → still (.gateMode (.external ch v)) .range 4 gate) ∧
      (64 ≤ v → still (.gateMode (.plan v)) .range 4 gate) ∧
      still (.gateMode (.other v)) .range 4 gate ∧
      (v = 0 ∨ 2 ^ 40 < v → still (.gateLength v) .range 5 [num 41 g.length]) ∧
      (65535 < v → still (.repeats v) .range 6 [num 16 g.repeats]) ∧
      (v = 0 ∨ 65535 < v → still (.samples v) .range 7 [num 16 g.samples]) ∧
      (2 ≤ v → still (.restart v) .range 8 [num 1 g.restart.code]) ∧
      (2 ≤ v → still (.sharedEdge v) .range 9 [bit g.shared]) ∧
      (v = 0 ∨ 2 ^ 32 ≤ v → still (.closeTimeout v) .range 10 [num 32 g.timeout]) ∧
      (2 ≤ v → still (.report v) .range 11 [bit g.report]) ∧
      still (.other v) .range v []) ∧
    (x.state ≠ .idle → ∀ (v : Nat) (ch : Fin 16) (se : RefSense),
      (v ≤ 2 → still (.kind v) .state 0 [num 2 g.kind.code]) ∧
      still (.endpointA ch se.code) .state 1
        [num 4 g.endpointA.channel, num 2 g.endpointA.sense.code] ∧
      still (.endpointB true ch se.code) .state 2 endpointB ∧
      still (.endpointB false v v) .state 2 endpointB ∧
      still (.armSource .immediate) .state 3 armSource ∧
      still (.armSource .atTime) .state 3 armSource ∧
      still (.armSource (.armEdge ch se.code)) .state 3 armSource ∧
      still (.gateMode .timed) .state 4 gate ∧
      (v ≤ 1 → still (.gateMode (.external ch v)) .state 4 gate) ∧
      (v ≤ 63 → still (.gateMode (.plan v)) .state 4 gate) ∧
      still (.gateMode .openEnded) .state 4 gate ∧
      (1 ≤ v → v ≤ 2 ^ 40 → still (.gateLength v) .state 5 [num 41 g.length]) ∧
      (v ≤ 65535 → still (.repeats v) .state 6 [num 16 g.repeats]) ∧
      (1 ≤ v → v ≤ 65535 → still (.samples v) .state 7 [num 16 g.samples]) ∧
      (v ≤ 1 → still (.restart v) .state 8 [num 1 g.restart.code]) ∧
      (v ≤ 1 → still (.sharedEdge v) .state 9 [bit g.shared]) ∧
      (1 ≤ v → v ≤ 2 ^ 32 - 1 → still (.closeTimeout v) .state 10 [num 32 g.timeout]) ∧
      (v ≤ 1 → still (.report v) .state 11 [bit g.report])) ∧
    ∀ n v, 8 ≤ n →
      exec (.slotSet c n (.repeats v)) s = .next (replied c .range [num 3 n, num 4 6] (consumed s)) ∧
      exec (.slotSet c n (.kind v)) s = .next (replied c .range [num 3 n, num 4 0] (consumed s))

/-- SLOT-GET reports the items of R90 and changes nothing; an absent segment of the retained result is
reported absent; RANGE for a slot or item that is none (R90, R131). A running slot reports a current plan step
where its gate mode is PLAN (R161). The model's own readings: an IDLE slot reports the gate index that its run
context holds, kept at the run's end, and that context's flags, clear at the run's end (log entry 32); the
descriptor of an absent segment has its last bit 0, and segment 7 is RANGE (log entry 17). -/
def Obligations.SlotGetReports : Prop :=
  ∀ (c : Cell) (i : Fin 8) (s : State), TakesQuietly s c →
    let x := s.slots.get i
    let g := x.config
    let done (item : SlotItem) (fs : List Field) : Prop :=
      exec (.slotGet c i item) s = .next (replied c .done fs (consumed s))
    done .setup ([num 2 g.kind.code, num 4 g.endpointA.channel, num 2 g.endpointA.sense.code] ++
      (match g.endpointB with
        | none => [num 1 0, num 6 0]
        | some e => [num 1 1, num 4 e.channel, num 2 e.sense.code]) ++ g.armSource.fields) ∧
    done .gating (g.gate.fields ++ [num 41 g.length]) ∧
    done .counts [num 16 g.repeats, num 16 g.samples, num 1 g.restart.code, bit g.shared,
      num 32 g.timeout, bit g.report] ∧
    (x.state = .idle ∨ x.run.planStep = none →
      done .state ([num 4 x.state.code, num 32 x.run.gateIndex, num 16 x.seq.toNat] ++
        x.run.flags.fields ++ [num 1 0, num 6 0])) ∧
    (∀ n f, x.state ≠ .idle → g.gate = .plan f → x.run.planStep = some n →
      done .state ([num 4 x.state.code, num 32 x.run.gateIndex, num 16 x.seq.toNat] ++
        x.run.flags.fields ++ [num 1 1, num 6 n.val])) ∧
    (∀ (r : Record) (seg : Nat), x.retained = some r → seg < r.body.cells →
      done (.result seg) [num 8 (i.val * 32 + seg * 4 + (if seg + 1 = r.body.cells then 2 else 0)),
        num 56 (r.segment seg)]) ∧
    (∀ seg, seg ≤ 6 → (∀ r, x.retained = some r → r.body.cells ≤ seg) →
      done (.result seg) [num 8 (i.val * 32 + seg * 4 + 1), num 56 0]) ∧
    (∀ seg, 7 ≤ seg →
      exec (.slotGet c i (.result seg)) s = .next (replied c .range [] (consumed s))) ∧
    (∀ n, exec (.slotGet c i (.other n)) s = .next (replied c .range [] (consumed s))) ∧
    ∀ n item, 8 ≤ n → exec (.slotGet c n item) s = .next (replied c .range [] (consumed s))

/-- ARM and ARM-AT (R94, R95, R97, R98, R99, R100). RANGE, then STATE, then for ARM-AT TOO_LATE where
time × 4096 is not later than W; otherwise DONE, and the slot holds a fresh run with P of endpoint A's
channel. An arm point ahead of W is waited for in ARMED; under ARM-EDGE the slot waits for the arm edge.
An IMMEDIATE arm at a whole W opens its first gate, starts its first step or begins its watch at once.
Nothing else changes but the markers that follow the slot. The run context also keeps the model's own
fields (notes/assumptions/5.md). -/
def Obligations.ArmStartsARun : Prop :=
  ∀ (c : Cell) (i : Fin 8) (s : State), TakesQuietly s c →
    ConfigSound (s.slots.get i).config → PlanSound s.plan →
    let x := s.slots.get i
    let w := s.queue.mark
    let unfit : Prop :=
      x.state ≠ .idle ∨ (x.config.kind = .interval ∧ x.config.endpointB = none)
    let armed (y : Slot) : Host.Outcome State Fault Refusal :=
      .next (replied c .done []
        (refreshSlotMarkers i { consumed s with slots := s.slots.set i y }))
    let fresh : Run :=
      { Run.empty with
        prescale := (s.channels.get x.config.endpointA.channel).set.prescale
        planStep := match x.config.gate with
          | .plan f => some f
          | _ => none
        extPhase := match x.config.gate with
          | .external ch l =>
            some (if (s.channels.get ch).status.level =
              (if l = .high then Level.high else Level.low) then .waitInactive else .waitActive)
          | _ => none }
    let opened (run : Run) (close : Option Stamp) : Slot :=
      { x with
        state := match x.config.kind with
          | .rate => .opening
          | .interval => .seekA
          | .total => .totalCounting
        run := { run with tOpen := some w, tClose := close } }
    (∀ n, 8 ≤ n → exec (.arm c n) s = .next (replied c .range [] (consumed s))) ∧
    (unfit ∨ x.config.armSource = .atTime →
      exec (.arm c i) s = .next (replied c .state [] (consumed s))) ∧
    (¬ unfit →
      (∀ r, x.config.armSource = .armEdge r →
        exec (.arm c i) s = armed { x with state := .armed, run := { fresh with armWait := true } }) ∧
      (x.config.armSource = .immediate →
        (w.toNat % 4096 ≠ 0 → exec (.arm c i) s =
          armed { x with state := .armed, run := { fresh with armAt := some (roundUp w) } }) ∧
        (w.toNat % 4096 = 0 →
          let live := { fresh with watching := true }
          (x.config.gate = .timed → exec (.arm c i) s =
            armed (opened live (some (w + BitVec.ofNat 59 (x.config.length * 4096))))) ∧
          (x.config.gate = .openEnded → exec (.arm c i) s = armed (opened live none)) ∧
          (∀ ch l, x.config.gate = .external ch l →
            exec (.arm c i) s = armed { x with state := .armed, run := live }) ∧
          ∀ f, x.config.gate = .plan f →
            let stop := some (w + BitVec.ofNat 59 ((s.plan.get f).length.toNat * 4096))
            let going := { live with stepRecord := some (s.plan.get f), stepEnd := stop }
            exec (.arm c i) s = armed
              (if (s.plan.get f).kind = .wait then { x with state := .armed, run := going }
              else opened going stop)))) ∧
    ∀ time : Nat,
      (2 ^ 47 ≤ time → exec (.armAt c i time) s = .next (replied c .range [] (consumed s))) ∧
      (∀ n, 8 ≤ n → exec (.armAt c n time) s = .next (replied c .range [] (consumed s))) ∧
      (time < 2 ^ 47 →
        (unfit → exec (.armAt c i time) s = .next (replied c .state [] (consumed s))) ∧
        (¬ unfit →
          let t : Stamp := BitVec.ofNat 59 (time * 4096)
          (later t w = false →
            exec (.armAt c i time) s = .next (replied c .tooLate [] (consumed s))) ∧
          (later t w = true → exec (.armAt c i time) s =
            armed { x with state := .armed, run := { fresh with armAt := some t } })))

/-- STOP by the slot's state (R111, Table 7-4). `after` is the state with the slot event taken (its results
published, R109) and with every boundary that W has reached taken (R92). A second STOP in CLOSING gives the
record of the close timeout, with F and Q of the last A edge (R104, R119 to R121, `rateRecord`). A run that ends keeps the gate index
it has come to until the next arm (R126), the rest of its context being discarded (R91): that is the model's
reading (log entry 32). -/
def Obligations.StopActsByTheSlotsState : Prop :=
  ∀ (c : Cell) (i : Fin 8) (s : State), TakesQuietly s c →
    let x := s.slots.get i
    let w := s.queue.mark
    let after (out : SlotOut) : Host.Outcome State Fault Refusal :=
      .next (replied c .done [] (settleSlot (applySlot i out (consumed s)) i))
    let stopped : RunFlags := { x.run.flags with stopped := true }
    let ended (r : Record) : SlotOut :=
      ({ x with
        state := .idle
        run :=
          { Run.empty with
            gateIndex :=
              match x.state, x.run.pendingGate with
              | .closing, some p => p.index
              | _, _ => min (2 ^ 32 - 1) (x.run.gateIndex + 1 + x.run.passed) }
        seq := x.seq + 1, retained := some r }, [r])
    let close : Stamp :=
      match x.run.tClose with
      | none => roundUp w
      | some t => if earlier t (roundUp w) then t else roundUp w
    let record (values : Bool) (flags : RunFlags) (body : RecordBody) : Record :=
      { slot := i, gateIndex := x.run.gateIndex, seq := x.seq, values := values
        flags := flags, body := body }
    (∀ n, 8 ≤ n → exec (.stop c n) s = .next (replied c .range [] (consumed s))) ∧
    (x.state = .idle → exec (.stop c i) s = .next (replied c .state [] (consumed s))) ∧
    (x.state = .armed →
      exec (.stop c i) s = after ({ x with
        state := .idle, run := { Run.empty with gateIndex := x.run.gateIndex } }, [])) ∧
    (x.run.gateIndex < 2 ^ 32 - 1 →
      (x.state = .opening → x.config.kind = .rate → exec (.stop c i) s =
        after (ended (record false { stopped with noSignal := true }
          (.rate x.run.prescale 0 0 0 0 0)))) ∧
      (x.state = .seekA ∨ x.state = .seekB → exec (.stop c i) s =
        after (ended (record true
          { stopped with short := x.run.flags.short || decide (x.run.count < x.config.samples) }
          (.interval x.run.count (x.run.min.getD 0) (x.run.max.getD 0) x.run.sum
            (intervalMean x.run.sum x.run.count) w)))) ∧
      (x.state = .totalCounting ∨ x.state = .held → exec (.stop c i) s =
        after (ended (record true stopped
          (.total x.run.countA x.run.countB (netCount x.run.countA x.run.countB)
            (x.run.tOpen.getD 0) w)))) ∧
      (x.state = .closing → x.run.flags.stopped = true → x.run.n = 0 → x.config.kind = .rate →
        exec (.stop c i) s =
          after (ended (record false { x.run.flags with noSignal := true }
            (.rate x.run.prescale 0 0 0 0 0)))) ∧
      (x.state = .closing → x.run.flags.stopped = true → 0 < x.run.n → exec (.stop c i) s =
        after (ended (rateRecord i x x.run.n (x.run.lastA.getD 0)
          { x.run.flags with closeLate := true })))) ∧
    (x.state = .closing → x.run.flags.stopped = false → exec (.stop c i) s =
      after ({ x with
        run := { x.run with flags := stopped, pendingGate := none, lastGate := true } }, [])) ∧
    (x.state = .rateCounting → (close ≠ w → exec (.stop c i) s =
      after ({ x with
        run := { x.run with flags := stopped, tClose := some close, lastGate := true } }, [])) ∧
      (close = w → exec (.stop c i) s =
        after ({ x with
          state := .closing
          run :=
            { x.run with
              flags := stopped, tClose := some w, lastGate := true, pendingGate := none } }, [])))

/-- HOLD and RESUME (R108): RANGE, then WRONG_KIND for a slot that is not TOTAL, then STATE unless it is in
COUNTING or HELD respectively; otherwise the slot goes from the one to the other, and nothing else changes
but the markers that follow it. -/
def Obligations.HoldAndResume : Prop :=
  ∀ (c : Cell) (i : Fin 8) (s : State), TakesQuietly s c →
    let x := s.slots.get i
    let moved (y : Slot) : Host.Outcome State Fault Refusal :=
      .next (replied c .done []
        (refreshSlotMarkers i { consumed s with slots := s.slots.set i y }))
    (∀ n, 8 ≤ n → exec (.hold c n) s = .next (replied c .range [] (consumed s)) ∧
      exec (.resume c n) s = .next (replied c .range [] (consumed s))) ∧
    (x.config.kind ≠ .total →
      exec (.hold c i) s = .next (replied c .wrongKind [] (consumed s)) ∧
      exec (.resume c i) s = .next (replied c .wrongKind [] (consumed s))) ∧
    (x.config.kind = .total →
      (x.state ≠ .totalCounting →
        exec (.hold c i) s = .next (replied c .state [] (consumed s))) ∧
      (x.state = .totalCounting → exec (.hold c i) s = moved { x with state := .held }) ∧
      (x.state ≠ .held → exec (.resume c i) s = .next (replied c .state [] (consumed s))) ∧
      (x.state = .held → exec (.resume c i) s = moved { x with state := .totalCounting }))

/-- The rows of a boundary that W reaches (R92): the slot's one boundary of that row is taken where W is
at or past it, and the row has no effect where W is before it. A move of W, and a command that sets a
boundary, take what they reach at once, one by one in time order, and a boundary that one of them sets at or
before W is taken in its turn: `state j` is the state after `j` of them, for as many as the coarse periods
between the first and W leave room for. That the rows meet a boundary to take only in a state that holds one
ahead of it is the model's choice (notes/assumptions/4.md). -/
def Obligations.BoundaryRowsTakeWhatWHasReached : Prop :=
  (∀ (s : State) (i : Fin 8) (k : Boundary) (b : Stamp), s.held = false →
    let x := s.slots.get i
    let row : Instr :=
      match k with
      | .armTime => .armPointReached i
      | .gateClose => .gateCloseReached i
      | .closeTimeout => .closeTimeoutExpiry i
      | .stepEnd => .planStepEnd i
    (x.boundaries = [(k, b)] → later b s.queue.mark = false →
      exec row s = .next (applySlot i (x.takeBoundary i s.plan k b) s) ∧
      ((((x.takeBoundary i s.plan k b).1.boundaries.all fun d => later d.2 s.queue.mark) = true) →
        settleSlot s i = applySlot i (x.takeBoundary i s.plan k b) s)) ∧
    ((x.boundaries.all fun d => later d.2 s.queue.mark) = true →
      exec row s = .next s ∧ settleSlot s i = s)) ∧
  ∀ (i : Fin 8) (n : Nat) (state : Nat → State) (kind : Nat → Boundary) (time : Nat → Stamp),
    let slot (j : Nat) : Slot := (state j).slots.get i
    let w := (state 0).queue.mark
    (∀ j, j < n →
      (kind j, time j) ∈ (slot j).boundaries ∧ later (time j) w = false ∧
      (∀ d ∈ (slot j).boundaries, d ≠ (kind j, time j) →
        later d.2 (time j) = true ∨ later d.2 w = true) ∧
      state (j + 1) =
        applySlot i ((slot j).takeBoundary i (state j).plan (kind j) (time j)) (state j)) →
    (∀ d ∈ (slot n).boundaries, later d.2 w = true) →
    n ≤ 8 * ((w - time 0).toNat / 4096 + 2) →
    settleSlot (state 0) i = state n

/-- What a slot of each kind does at its boundaries (R92, R94, R95, R97 to R104, R106 to R108): the arm time
under each gate mode; the close of a RATE, INTERVAL and TOTAL gate, in HELD too, the next TIMED gate opening
at the same boundary or the run ending; the close timeout, with a pending gate and without, its record being
that of the last A edge with CLOSE-LATE and F and Q (R119 to R121, `rateRecord`) or, where N is 0, a NO-SIGNAL
with the zero fields of R130 (`zeroBody`), each with the run flags gathered (R110); and the end of a
plan step, from a MEASURE or WAIT step to the step that its action names, or to the end of the run. A run that
ends keeps its last gate index (R126), by the model's reading (log entry 32). -/
def Obligations.SlotBoundaries : Prop :=
  ∀ (i : Fin 8) (plan : Bank PlanStep 64) (t : Stamp) (x : Slot),
    let take (k : Boundary) : SlotOut := x.takeBoundary i plan k t
    let next : Stamp := t + BitVec.ofNat 59 (x.config.length * 4096)
    let stop (m : Fin 64) : Option Stamp :=
      some (t + BitVec.ofNat 59 ((plan.get m).length.toNat * 4096))
    let ended (index : Nat) (r : Record) : SlotOut :=
      ({ x with
        seq := x.seq + 1, retained := some r, state := .idle
        run := { Run.empty with gateIndex := index } }, [r])
    -- a gate of the slot's kind opens at `t`, to close at `close`
    let opened (close : Option Stamp) (y : Slot) : Slot :=
      let run := { y.run with tOpen := some t, tClose := close }
      match y.config.kind with
      | .rate => { y with state := .opening, run := { run with t0 := none, lastA := none, n := 0 } }
      | .interval =>
        { y with
          state := .seekA
          run := { run with pendingA := none, count := 0, min := none, max := none, sum := 0 } }
      | .total => { y with state := .totalCounting, run := { run with countA := 0, countB := 0 } }
    -- step `m` starts at `t`
    let begun (m : Fin 64) (run : Run) : Run :=
      { run with planStep := some m, stepRecord := some (plan.get m), stepEnd := stop m }
    -- the result that falls where a gate closes: RATE OPENING with NO-SIGNAL, INTERVAL, TOTAL
    let result (values : Bool) (flags : RunFlags) (body : RecordBody) : Record :=
      { slot := i, gateIndex := x.run.gateIndex, seq := x.seq, values := values, flags := flags
        body := body }
    let falls (r : Record) : Prop :=
      (x.state = .opening ∧ x.config.kind = .rate ∧
        r = result false { x.run.flags with noSignal := true } (.rate x.run.prescale 0 0 0 0 0)) ∨
      ((x.state = .seekA ∨ x.state = .seekB) ∧ x.config.kind = .interval ∧
        r = result true
          { x.run.flags with
            short := x.run.flags.short || decide (x.run.count < x.config.samples) }
          (.interval x.run.count (x.run.min.getD 0) (x.run.max.getD 0) x.run.sum
            (intervalMean x.run.sum x.run.count) t)) ∨
      ((x.state = .totalCounting ∨ x.state = .held) ∧ x.config.kind = .total ∧
        r = result true x.run.flags
          (.total x.run.countA x.run.countB (netCount x.run.countA x.run.countB)
            (x.run.tOpen.getD 0) t))
    -- the arm time of an IMMEDIATE or AT-TIME run: the first gate, the watch, or the first step
    (x.state = .armed → (∀ r, x.config.armSource ≠ .armEdge r) →
      let y : Slot :=
        { x with run := { x.run with armAt := none, armWait := false, watching := true } }
      (x.config.gate = .timed → take .armTime = (opened (some next) y, [])) ∧
      (x.config.gate = .openEnded → take .armTime = (opened none y, [])) ∧
      (∀ g l, x.config.gate = .external g l → take .armTime = (y, [])) ∧
      ∀ m, x.config.gate = .plan m → x.run.lastGate = false →
        ((plan.get m).kind = .measure →
          take .armTime = (opened (stop m) { y with run := begun m y.run }, [])) ∧
        ((plan.get m).kind = .wait → take .armTime = ({ y with
          run :=
            { begun m y.run with tOpen := none, tClose := none, pendingGate := none } }, []))) ∧
    -- under ARM-EDGE it starts the wait for the arm edge
    (∀ r, x.config.armSource = .armEdge r → take .armTime =
      ({ x with run := { x.run with armAt := none, armWait := true } }, [])) ∧
    -- RATE COUNTING: CLOSING, with the pending gate of a TIMED run while repeats remain
    (x.state = .rateCounting → x.run.gateIndex + 1 + x.run.passed < 2 ^ 32 - 1 →
      take .gateClose = ({ x with
        state := .closing
        run :=
          { x.run with
            tClose := some t
            pendingGate :=
              if x.config.gate = .timed ∧ x.run.lastGate = false ∧ (x.config.repeats = 0 ∨
                  x.run.gateIndex + 1 + x.run.passed < x.config.repeats) then
                some ⟨t, some next, x.run.gateIndex + 1 + x.run.passed, .clear⟩
              else none } }, [])) ∧
    -- RATE CLOSING: the pending gate is passed over and its index used up
    (∀ p, x.state = .closing → x.run.pendingGate = some p →
      x.run.gateIndex + 2 + x.run.passed < 2 ^ 32 - 1 → x.config.gate = .timed →
      take .gateClose = ({ x with
        run :=
          { x.run with
            passed := x.run.passed + 1
            pendingGate :=
              if x.run.lastGate = false ∧ (x.config.repeats = 0 ∨
                  x.run.gateIndex + 2 + x.run.passed < x.config.repeats) then
                some ⟨t, some next, x.run.gateIndex + 2 + x.run.passed, .clear⟩
              else none } }, [])) ∧
    -- a TIMED gate whose result falls at its close
    (∀ r, falls r → x.config.gate = .timed → x.run.lastGate = false → x.run.passed = 0 →
      x.run.gateIndex + 1 < 2 ^ 32 - 1 →
      take .gateClose =
        if x.config.repeats = 0 ∨ x.run.gateIndex + 1 < x.config.repeats then
          (opened (some next)
            { x with
              seq := x.seq + 1, retained := some r
              run := { x.run with flags := .clear, gateIndex := x.run.gateIndex + 1 } }, [r])
        else ended (x.run.gateIndex + 1) r) ∧
    -- the close timeout: the last A edge with CLOSE-LATE, or NO-SIGNAL; then the pending gate in OPENING,
    -- the next TIMED gate, the wait for the next gate, or the end of the run
    (x.state = .closing → x.config.kind = .rate → x.run.gateIndex + 1 + x.run.passed < 2 ^ 32 - 1 →
      let r : Record :=
        if 0 < x.run.n then
          rateRecord i x x.run.n (x.run.lastA.getD 0) { x.run.flags with closeLate := true }
        else result false { x.run.flags with noSignal := true } (zeroBody x)
      let index := x.run.gateIndex + 1 + x.run.passed
      let goes (state : SlotState) (run : Run) : Prop :=
        take .closeTimeout =
          ({ x with seq := x.seq + 1, retained := some r, state := state, run := run }, [r])
      let fresh : Run :=
        { x.run with
          flags := .clear, passed := 0, pendingGate := none, t0 := none, lastA := none, n := 0 }
      let waits : Run :=
        { x.run with
          flags := .clear, passed := 0, gateIndex := index, tOpen := none, tClose := none
          pendingGate := none }
      (∀ p, x.run.pendingGate = some p → x.config.gate = .timed →
        goes .opening
          { fresh with gateIndex := p.index, tOpen := some t, tClose := some next }) ∧
      (∀ p, x.run.pendingGate = some p → x.config.gate ≠ .timed →
        goes .opening
          { fresh with
            gateIndex := p.index, tOpen := some p.tOpen, tClose := p.tClose
            flags :=
              { RunFlags.clear with
                gap := p.marks.gap, nominal := p.marks.nominal
                unepoched := p.marks.unepoched } }) ∧
      (x.run.pendingGate = none →
        (x.run.lastGate = true → take .closeTimeout = ended index r) ∧
        (x.run.lastGate = false →
          (x.config.gate = .timed →
            if x.config.repeats = 0 ∨ index < x.config.repeats then
              goes .opening { fresh with gateIndex := index, tOpen := some t, tClose := some next }
            else take .closeTimeout = ended index r) ∧
          (x.config.gate = .openEnded → take .closeTimeout = ended index r) ∧
          (∀ g l, x.config.gate = .external g l →
            if x.config.repeats = 0 ∨ index < x.config.repeats then
              goes .armed { waits with extPhase := some .waitActive }
            else take .closeTimeout = ended index r) ∧
          (∀ f, x.config.gate = .plan f →
            if x.run.stepEnd = none then take .closeTimeout = ended index r
            else goes .armed waits)))) ∧
    -- the end of a step under PLAN: step `m` that the action names starts, or the run ends
    (∀ f, x.config.gate = .plan f →
      ∀ (p : PlanStep) (n : Fin 64), x.run.stepRecord = some p → x.run.planStep = some n →
      let follows (m : Fin 64) : Prop := (p.action = .next ∧ m = n + 1) ∨ p.action = .jump m
      -- after a WAIT step
      (x.state = .armed → x.run.lastGate = false →
        (p.action = .last → take .stepEnd =
          ({ x with state := .idle, run := { Run.empty with gateIndex := x.run.gateIndex } }, [])) ∧
        ∀ m, follows m →
          ((plan.get m).kind = .wait → take .stepEnd = ({ x with
            run :=
              { begun m x.run with tOpen := none, tClose := none, pendingGate := none } }, [])) ∧
          ((plan.get m).kind = .measure →
            take .stepEnd = (opened (stop m) { x with run := begun m x.run }, []))) ∧
      -- after a MEASURE step whose gate gives its result there
      (∀ r, falls r → x.run.lastGate = false → x.run.passed = 0 →
        x.run.gateIndex + 1 < 2 ^ 32 - 1 → x.run.stepEnd ≠ none →
        let y : Slot :=
          { x with
            seq := x.seq + 1, retained := some r, state := .armed
            run :=
              { x.run with
                flags := .clear, gateIndex := x.run.gateIndex + 1, tOpen := none, tClose := none
                pendingGate := none
                pendingA := if x.config.kind = .interval then none else x.run.pendingA } }
        (p.action = .last → take .stepEnd = ended (x.run.gateIndex + 1) r) ∧
        ∀ m, follows m →
          ((plan.get m).kind = .wait → take .stepEnd = ({ y with run := begun m y.run }, [r])) ∧
          ((plan.get m).kind = .measure →
            take .stepEnd = (opened (stop m) { y with run := begun m y.run }, [r]))) ∧
      -- after a MEASURE step of a RATE run that is COUNTING: the next step's gate is pending
      (x.state = .rateCounting → x.run.gateIndex + 1 + x.run.passed < 2 ^ 32 - 1 →
        (p.action = .last → take .stepEnd = ({ x with
          state := .closing
          run := { x.run with tClose := some t, pendingGate := none, stepEnd := none } }, [])) ∧
        ∀ m, follows m →
          take .stepEnd = ({ x with
            state := .closing
            run :=
              { begun m x.run with
                tClose := some t
                pendingGate :=
                  if (plan.get m).kind = .measure ∧ x.run.lastGate = false then
                    some ⟨t, stop m, x.run.gateIndex + 1 + x.run.passed, .clear⟩
                  else none } }, [])) ∧
      -- in CLOSING: an open pending gate is passed over, and the next step's gate is pending
      (x.state = .closing → x.run.gateIndex + 2 + x.run.passed < 2 ^ 32 - 1 →
        let passed := if x.run.pendingGate = none then x.run.passed else x.run.passed + 1
        (p.action = .last → take .stepEnd = ({ x with
          run := { x.run with passed := passed, pendingGate := none, stepEnd := none } }, [])) ∧
        ∀ m, follows m →
          take .stepEnd = ({ x with
            run :=
              { begun m x.run with
                passed := passed
                pendingGate :=
                  if (plan.get m).kind = .measure ∧ x.run.lastGate = false then
                    some ⟨t, stop m, x.run.gateIndex + 1 + passed, .clear⟩
                  else none } }, [])))

/-- The arm edge and the gate edges (R93, R96, R98, R102, R103). The first edge that matches the arm
reference of a waiting slot is its arm point. Under EXTERNAL gating an edge to the active level opens a gate
in WAIT-ACTIVE, and in CLOSING is the pending gate; an edge to the inactive level ends WAIT-INACTIVE, closes
an open gate, and in CLOSING passes the pending gate over; the stamps are the gate's own. A delivered edge
meets the arm reference, the gate reference and the endpoints in that order. By the model's reading the marks
of an arm or opening edge are recorded where a gate opens at it, and those of the edge that opens a pending
gate stay with that gate (log entry 20), and a run that ends keeps its gate index in IDLE (log entry 32). -/
def Obligations.ArmAndGateEdges : Prop :=
  ∀ (i : Fin 8) (plan : Bank PlanStep 64) (e : Edge) (x : Slot),
    let used : RunFlags :=
      { x.run.flags with
        gap := x.run.flags.gap || e.marks.gap
        nominal := x.run.flags.nominal || e.marks.nominal
        unepoched := x.run.flags.unepoched || e.marks.unepoched }
    let begun : Run := { x.run with armAt := none, armWait := false, watching := true }
    (∀ r, x.state = .armed → x.config.armSource = .armEdge r → x.run.armWait = true →
      (r.admits e = false → x.matchArm plan e = x) ∧
      (r.admits e = true →
        let opens (close : Option Stamp) (run : Run) : Prop :=
          (x.config.kind = .rate → x.matchArm plan e = { x with
            state := .opening
            run :=
              { run with
                tOpen := some e.stamp, tClose := close, t0 := none, lastA := none, n := 0
                flags := used } }) ∧
          (x.config.kind = .interval → x.matchArm plan e = { x with
            state := .seekA
            run :=
              { run with
                tOpen := some e.stamp, tClose := close, pendingA := none, count := 0, min := none
                max := none, sum := 0, flags := used } }) ∧
          (x.config.kind = .total → x.matchArm plan e = { x with
            state := .totalCounting
            run :=
              { run with
                tOpen := some e.stamp, tClose := close, countA := 0, countB := 0
                flags := used } })
        (x.config.gate = .timed →
          opens (some (e.stamp + BitVec.ofNat 59 (x.config.length * 4096))) begun) ∧
        (x.config.gate = .openEnded → opens none begun) ∧
        (∀ g l, x.config.gate = .external g l → x.matchArm plan e = { x with run := begun }) ∧
        ∀ f, x.config.gate = .plan f → x.run.lastGate = false →
          let stop := some (e.stamp + BitVec.ofNat 59 ((plan.get f).length.toNat * 4096))
          let going : Run :=
            { begun with planStep := some f, stepRecord := some (plan.get f), stepEnd := stop }
          ((plan.get f).kind = .measure → opens stop going) ∧
          ((plan.get f).kind = .wait → x.matchArm plan e = { x with
            run := { going with tOpen := none, tClose := none, pendingGate := none } }))) ∧
    (x.state ≠ .armed ∨ x.run.armWait = false → x.matchArm plan e = x) ∧
    (let y := x.matchArm plan e
    let g := y.matchGate i e
    let o := g.1.matchEndpoints i e
    x.deliver i plan e = (o.1, g.2 ++ o.2)) ∧
    ((∀ g l, x.config.gate ≠ .external g l) → x.matchGate i e = (x, [])) ∧
    ∀ g l, x.config.gate = .external g l →
      let active : Prop := (l = .high ∧ e.sense = .rise) ∨ (l = .low ∧ e.sense = .fall)
      (g ≠ e.channel ∨ x.run.watching = false → x.matchGate i e = (x, [])) ∧
      (g = e.channel → x.run.watching = true →
        (x.state = .armed → x.run.extPhase = some .waitInactive →
          (active → x.matchGate i e = (x, [])) ∧
          (¬ active → x.matchGate i e =
            ({ x with run := { x.run with extPhase := some .waitActive } }, []))) ∧
        (x.state = .armed → x.run.extPhase = some .waitActive →
          (active → x.config.kind = .rate → x.matchGate i e = ({ x with
            state := .opening
            run :=
              { x.run with
                tOpen := some e.stamp, tClose := none, t0 := none, lastA := none, n := 0
                flags := used } }, [])) ∧
          (active → x.config.kind = .interval → x.matchGate i e = ({ x with
            state := .seekA
            run :=
              { x.run with
                tOpen := some e.stamp, tClose := none, pendingA := none, count := 0, min := none
                max := none, sum := 0, flags := used } }, [])) ∧
          (active → x.config.kind = .total → x.matchGate i e = ({ x with
            state := .totalCounting
            run :=
              { x.run with
                tOpen := some e.stamp, tClose := none, countA := 0, countB := 0
                flags := used } }, [])) ∧
          (¬ active → x.matchGate i e = (x, []))) ∧
        (x.state = .rateCounting →
          (active → x.matchGate i e = (x, [])) ∧
          (¬ active → x.matchGate i e = ({ x with
            state := .closing
            run :=
              { x.run with tClose := some e.stamp, pendingGate := none, flags := used } }, []))) ∧
        (x.state = .closing → x.run.gateIndex + 1 + x.run.passed < 2 ^ 32 - 1 → active →
          let index := x.run.gateIndex + 1 + x.run.passed
          (x.run.pendingGate = none → x.run.lastGate = false →
              x.config.repeats = 0 ∨ index < x.config.repeats →
            x.matchGate i e = ({ x with
              run := { x.run with pendingGate := some ⟨e.stamp, none, index, e.marks⟩ } }, [])) ∧
          (x.run.pendingGate ≠ none ∨ x.run.lastGate = true ∨
              (x.config.repeats ≠ 0 ∧ x.config.repeats ≤ index) →
            x.matchGate i e = (x, []))) ∧
        (x.state = .closing → ¬ active →
          x.matchGate i e =
            (if x.run.pendingGate = none then x
            else { x with
              run := { x.run with pendingGate := none, passed := x.run.passed + 1 } }, [])) ∧
        (x.state = .opening ∨ x.state = .seekA ∨ x.state = .seekB ∨ x.state = .totalCounting ∨
            x.state = .held → active → x.matchGate i e = (x, [])) ∧
        (x.run.gateIndex + 1 + x.run.passed < 2 ^ 32 - 1 → ¬ active →
          let index := x.run.gateIndex + 1 + x.run.passed
          let closes (values : Bool) (flags : RunFlags) (body : RecordBody)
              (pendingA : Option PendingA) : Prop :=
            let r : Record :=
              { slot := i, gateIndex := x.run.gateIndex, seq := x.seq, values := values
                flags := flags, body := body }
            let y : Slot := { x with seq := x.seq + 1, retained := some r }
            (x.run.lastGate = false → x.config.repeats = 0 ∨ index < x.config.repeats →
              x.matchGate i e = ({ y with
                state := .armed
                run :=
                  { x.run with
                    flags := .clear, passed := 0, gateIndex := index, tOpen := none
                    tClose := none, pendingGate := none, extPhase := some .waitActive
                    pendingA := pendingA } }, [r])) ∧
            (x.run.lastGate = true ∨ (x.config.repeats ≠ 0 ∧ x.config.repeats ≤ index) →
              x.matchGate i e = ({ y with
                state := .idle, run := { Run.empty with gateIndex := index } }, [r]))
          (x.state = .opening → x.config.kind = .rate →
            closes false { used with noSignal := true } (.rate x.run.prescale 0 0 0 0 0)
              x.run.pendingA) ∧
          (x.state = .seekA ∨ x.state = .seekB →
            closes true
              { used with
                short := x.run.flags.short || decide (x.run.count < x.config.samples) }
              (.interval x.run.count (x.run.min.getD 0) (x.run.max.getD 0) x.run.sum
                (intervalMean x.run.sum x.run.count) e.stamp) none) ∧
          (x.state = .totalCounting ∨ x.state = .held →
            closes true used
              (.total x.run.countA x.run.countB (netCount x.run.countA x.run.countB)
                (x.run.tOpen.getD 0) e.stamp) x.run.pendingA)))

/-- What a delivered edge does at the endpoints (R101, R102, R105, R106, R107, R122, R123). RATE: the first A
edge is t0, each later one adds 1 to N, and the closing edge ends the gate with N one higher, in a record with
F and Q formed from that N and from T (R119 to R121, `rateRecord`); a pending gate goes on from it, its flags
starting with the marks of the closing edge and, by the model's reading (log entry 20), those of the edge that
opened it; without one the slot waits in ARMED, or the run ends. INTERVAL: an A edge becomes
pending, a later B edge completes a sample, and the batch ends at the M-th; with shared edge on the completing
edge is pending again. TOTAL: each count takes the edges that match its endpoint. Counts and sums stay at
their limits, recording SATURATED. A batch that ends at M goes on in the same EXTERNAL, PLAN or OPEN gate. By
the model's reading the marks of the edge that opened that gate stand in the first batch's result alone, those
of the edge that ends a batch at M are not recorded for the next batch by its stamp's becoming the t_open of a
TIMED gate (log entry 31), and a run that ends keeps its gate index in IDLE (log entry 32). -/
def Obligations.EdgesAtTheEndpoints : Prop :=
  ∀ (i : Fin 8) (e : Edge) (x : Slot),
    let a := x.config.endpointA.admits e
    let b := x.admitsB e
    let used : RunFlags :=
      { x.run.flags with
        gap := x.run.flags.gap || e.marks.gap
        nominal := x.run.flags.nominal || e.marks.nominal
        unepoched := x.run.flags.unepoched || e.marks.unepoched }
    (x.config.kind = .rate →
      (a = false → x.matchEndpoints i e = (x, [])) ∧
      (a = true → x.state = .opening → x.matchEndpoints i e = ({ x with
        state := .rateCounting
        run :=
          { x.run with t0 := some e.stamp, lastA := some e.stamp, n := 0, flags := used } }, [])) ∧
      (a = true → x.state = .rateCounting → x.run.n + 1 < 2 ^ 40 - 1 →
        x.matchEndpoints i e = ({ x with
          run :=
            { x.run with
              n := x.run.n + 1, lastA := some e.stamp, flags := used } }, [])) ∧
      (a = true → x.state = .rateCounting → 2 ^ 40 - 1 ≤ x.run.n + 1 → x.run.n ≤ 2 ^ 40 - 1 →
        x.matchEndpoints i e = ({ x with
          run :=
            { x.run with
              n := 2 ^ 40 - 1, lastA := some e.stamp
              flags := { used with saturated := true } } }, [])) ∧
      (a = true → x.state = .closing → x.run.n ≤ 2 ^ 40 - 1 →
        x.run.gateIndex + 1 + x.run.passed < 2 ^ 32 - 1 →
        let n := min (2 ^ 40 - 1) (x.run.n + 1)
        let r := rateRecord i x n e.stamp
          { used with saturated := x.run.flags.saturated || decide (n = 2 ^ 40 - 1) }
        ∃ y : Slot, x.matchEndpoints i e = (y, [r]) ∧
          y.seq = x.seq + 1 ∧ y.retained = some r ∧ y.config = x.config ∧
          (∀ p : PendingGate, x.run.pendingGate = some p → y = { x with
            state := .rateCounting, seq := x.seq + 1, retained := some r
            run :=
              { x.run with
                gateIndex := p.index, tOpen := some p.tOpen, tClose := p.tClose
                pendingGate := none, passed := 0, t0 := some e.stamp, lastA := some e.stamp
                n := 0
                flags :=
                  { RunFlags.clear with
                    gap := p.marks.gap || e.marks.gap
                    nominal := p.marks.nominal || e.marks.nominal
                    unepoched := p.marks.unepoched || e.marks.unepoched } } }) ∧
          (x.run.pendingGate = none →
            let index := x.run.gateIndex + 1 + x.run.passed
            let further : Prop := x.run.lastGate = false ∧
              ((∃ g l, x.config.gate = .external g l ∧
                  (x.config.repeats = 0 ∨ index < x.config.repeats)) ∨
                ∃ f, x.config.gate = .plan f ∧ x.run.stepEnd ≠ none)
            (further → y.state = .armed ∧ y.run.gateIndex = index ∧ y.run.tOpen = none ∧
              y.run.tClose = none ∧ y.run.pendingGate = none ∧ y.run.flags = RunFlags.clear ∧
              y.run.stepEnd = x.run.stepEnd ∧
              y.run.extPhase = (match x.config.gate with
                | .external _ _ => some .waitActive
                | _ => x.run.extPhase)) ∧
            (¬ further → x.config.gate ≠ .timed →
              y.state = .idle ∧ y.run = { Run.empty with gateIndex := index }) ∧
            (x.config.gate = .timed → x.run.lastGate = true ∨
                (x.config.repeats ≠ 0 ∧ x.config.repeats ≤ index) →
              y.state = .idle ∧ y.run = { Run.empty with gateIndex := index })))) ∧
    (x.config.kind = .interval →
      (a = true → x.state = .seekA → x.matchEndpoints i e = ({ x with
        state := .seekB, run := { x.run with pendingA := some ⟨e.stamp, e.marks⟩ } }, [])) ∧
      (a = false → x.state = .seekA → x.matchEndpoints i e = (x, [])) ∧
      ∀ q : PendingA, x.state = .seekB → x.run.pendingA = some q →
        let d := stampDiff e.stamp q.stamp
        let sample : Nat := if 0 < d ∧ d < 2 ^ 56 then d.toNat else 2 ^ 56 - 1
        let least : Nat := match x.run.min with
          | none => sample
          | some m => min m sample
        let most : Nat := match x.run.max with
          | none => sample
          | some m => max m sample
        let sum := min (2 ^ 64 - 1) (x.run.sum + sample)
        let flags : RunFlags :=
          { x.run.flags with
            gap := (x.run.flags.gap || q.marks.gap) || e.marks.gap
            nominal := (x.run.flags.nominal || q.marks.nominal) || e.marks.nominal
            unepoched := (x.run.flags.unepoched || q.marks.unepoched) || e.marks.unepoched
            saturated := x.run.flags.saturated ||
              (!decide (0 < d ∧ d < 2 ^ 56) || decide (2 ^ 64 - 1 < x.run.sum + sample)) }
        (b = true → e.stamp = q.stamp → x.matchEndpoints i e = (x, [])) ∧
        (b = false → a = true → x.matchEndpoints i e =
          (if x.config.restart = .takeLatest then
            { x with run := { x.run with pendingA := some ⟨e.stamp, e.marks⟩ } }
          else x, [])) ∧
        (b = false → a = false → x.matchEndpoints i e = (x, [])) ∧
        (b = true → e.stamp ≠ q.stamp → x.run.count + 1 < x.config.samples →
          x.matchEndpoints i e = ({ x with
            state := if x.config.shared = true then .seekB else .seekA
            run :=
              { x.run with
                pendingA := if x.config.shared = true then some ⟨e.stamp, e.marks⟩ else none
                count := x.run.count + 1, min := some least, max := some most, sum := sum
                flags := flags } }, [])) ∧
        (b = true → e.stamp ≠ q.stamp → x.config.samples ≤ x.run.count + 1 →
          x.run.passed = 0 → x.run.gateIndex + 1 < 2 ^ 32 - 1 →
          let r : Record :=
            { slot := i, gateIndex := x.run.gateIndex, seq := x.seq, values := true, flags := flags
              body := .interval (x.run.count + 1) least most sum
                (intervalMean sum (x.run.count + 1)) e.stamp }
          let further : Prop := x.run.lastGate = false ∧
            match x.config.gate with
            | .plan _ => x.run.stepEnd ≠ none
            | _ => x.config.repeats = 0 ∨ x.run.gateIndex + 1 < x.config.repeats
          (further → x.matchEndpoints i e = ({ x with
            seq := x.seq + 1, retained := some r
            state := if x.config.shared = true then .seekB else .seekA
            run :=
              { x.run with
                pendingA := if x.config.shared = true then some ⟨e.stamp, e.marks⟩ else none
                count := 0, min := none, max := none, sum := 0, flags := .clear
                gateIndex := x.run.gateIndex + 1
                tOpen := if x.config.gate = .timed then some e.stamp else x.run.tOpen
                tClose :=
                  if x.config.gate = .timed then
                    some (e.stamp + BitVec.ofNat 59 (x.config.length * 4096))
                  else x.run.tClose } }, [r])) ∧
          (¬ further → x.matchEndpoints i e = ({ x with
            seq := x.seq + 1, retained := some r, state := .idle
            run := { Run.empty with gateIndex := x.run.gateIndex + 1 } }, [r])))) ∧
    (x.config.kind = .total →
      (x.state = .held → x.matchEndpoints i e = (x, [])) ∧
      (x.state = .totalCounting → x.run.countA ≤ 2 ^ 40 - 1 → x.run.countB ≤ 2 ^ 40 - 1 →
        let countA := if a then min (2 ^ 40 - 1) (x.run.countA + 1) else x.run.countA
        let countB := if b then min (2 ^ 40 - 1) (x.run.countB + 1) else x.run.countB
        x.matchEndpoints i e = ({ x with
          run :=
            { x.run with
              countA := countA, countB := countB
              flags :=
                if a || b then
                  { used with
                    saturated := x.run.flags.saturated ||
                      ((a && decide (countA = 2 ^ 40 - 1)) ||
                        (b && decide (countB = 2 ^ 40 - 1))) }
                else x.run.flags } }, [])))

/-! ## Measurement arithmetic, results and the Result Queue -/

/-- The frequency and the mean period of a RATE result, and the sample of an INTERVAL batch (R120, R121,
R123): F = floor((2 × NP × 1,024,000,000,000,000 + T) / (2 × T)), held to 2^64 − 1 and then marked; Q =
floor((2 × 256 × T + NP) / (2 × NP)), at most 2^66 − 256; a sample is the signed difference where it lies
in 1..2^56 − 1 and otherwise 2^56 − 1, marked. A mark is recorded as SATURATED: that of F in the result's
flags, that of a sample in the batch's. -/
def Obligations.FormulasOfTheArithmetic : Prop :=
  (∀ np t : Nat, 1 ≤ np → 1 ≤ t → t ≤ 2 ^ 58 - 1 →
    let f := (2 * np * 1024000000000000 + t) / (2 * t)
    frequency np t = (if f ≤ 2 ^ 64 - 1 then (f, false) else (2 ^ 64 - 1, true)) ∧
    meanPeriod np t = (2 * 256 * t + np) / (2 * np) ∧ meanPeriod np t ≤ 2 ^ 66 - 256) ∧
  ∀ a b : Stamp,
    (∀ n : Nat, 1 ≤ n → n ≤ 2 ^ 56 - 1 → stampDiff b a = n → intervalSample a b = (n, false)) ∧
    (2 ^ 56 ≤ stampDiff b a ∨ stampDiff b a ≤ 0 → intervalSample a b = (2 ^ 56 - 1, true)) ∧
    ∀ (i : Fin 8) (m : EdgeMarks) (e : Edge) (x : Slot),
      (x.run.t0 = some a → 0 < stampDiff b a →
        (frequency (x.run.n * x.run.prescale) (stampDiff b a).toNat).2 = true →
        (x.emitRate i b).2.flags.saturated = true) ∧
      (e.stamp = b → (intervalSample a b).2 = true →
        (x.recordSample ⟨a, m⟩ e).run.flags.saturated = true)

/-- The values of the records (R119, R120, R121, R124, R125, R127, R128, R129): a RATE result takes T from
its stamps and NP = N × P; an INTERVAL mean is the sum over the count, rounded half up; a TOTAL net is the
difference of the counts. -/
def Obligations.RecordsCarryTheValues : Prop :=
  ∀ (i : Fin 8) (t : Stamp) (x : Slot),
    (∀ t0 : Stamp, x.run.t0 = some t0 → 0 < stampDiff t t0 →
      let span := (stampDiff t t0).toNat
      let np := x.run.n * x.run.prescale
      (x.emitRate i t).2.body =
        .rate x.run.prescale x.run.n t0 t (frequency np span).1 (meanPeriod np span) ∧
      (x.emitRate i t).2.values = true) ∧
    (∀ t0 : Stamp, x.run.t0 = some t0 → stampDiff t t0 ≤ 0 →
      (x.emitRate i t).2.flags.saturated = true ∧
      (x.emitRate i t).2.body =
        .rate x.run.prescale x.run.n t0 t (frequency (x.run.n * x.run.prescale) (2 ^ 58 - 1)).1
          (meanPeriod (x.run.n * x.run.prescale) (2 ^ 58 - 1))) ∧
    (∀ mn mx, x.run.min = some mn → x.run.max = some mx → 1 ≤ x.run.count →
      (x.emitBatch i t).2.body = .interval x.run.count mn mx x.run.sum
        ((2 * x.run.sum + x.run.count) / (2 * x.run.count)) t) ∧
    (x.run.count = 0 → x.run.min = none → x.run.max = none → x.run.sum = 0 →
      1 ≤ x.config.samples →
      (x.emitBatch i t).2.body = .interval 0 0 0 0 0 t ∧ (x.emitBatch i t).2.values = true ∧
        (x.emitBatch i t).2.flags.short = true) ∧
    ∀ o, x.run.tOpen = some o → x.run.countA ≤ 2 ^ 40 - 1 → x.run.countB ≤ 2 ^ 40 - 1 →
      (x.emitTotal i t).2.body =
        .total x.run.countA x.run.countB ((x.run.countA : Int) - (x.run.countB : Int)) o t

/-- A result leaves its slot (R109, R126, R131): the record carries the gate index, the sequence number and
the run flags, SATURATED with the index at its limit; the number goes on modulo 2^16, the record is
retained, the flags are cleared and the index advances. Its record is offered to the Result Queue where
report is on, SLOT is raised, and the DONE markers of the slot begin or extend a pulse. The record's bytes are
those of Tables 11-4 and 11-5, and segment s carries bytes 7s to 7s + 6 (R163): `bytes` is the whole record as
one number, of 49 bytes for RATE and INTERVAL and 42 for TOTAL. -/
def Obligations.ResultLeavesItsSlot : Prop :=
  (∀ (i : Fin 8) (values : Bool) (body : RecordBody) (x : Slot),
    let r := (x.emit i values body).2
    let y := (x.emit i values body).1
    r.slot = i ∧ r.gateIndex = x.run.gateIndex ∧ r.seq = x.seq ∧ r.values = values ∧
      r.body = body ∧
      (x.run.gateIndex < 2 ^ 32 - 1 → r.flags = x.run.flags) ∧
      (x.run.gateIndex = 2 ^ 32 - 1 → r.flags = { x.run.flags with saturated := true }) ∧
      y.seq = x.seq + 1 ∧ y.retained = some r ∧ y.run.flags = RunFlags.clear ∧
      y.run.gateIndex = min (2 ^ 32 - 1) (x.run.gateIndex + 1 + x.run.passed) ∧
      y.state = x.state ∧ y.config = x.config) ∧
  (∀ (s : State) (i : Fin 8) (y : Slot) (r : Record), r.slot = i →
    let t := applySlot i (y, [r]) s
    t.results = (if y.config.report then (offer (.result r) s).results else s.results) ∧
      t.slots = s.slots.set i y ∧
      ((s.command.attns.get AttnKind.slot.code).enable = true →
        (t.command.attns.get AttnKind.slot.code).flag = true ∧
        (t.command.attns.get AttnKind.slot.code).detail = [num 3 i.val]) ∧
      (∀ m, (s.markers.get m).source = .done i →
        (t.markers.get m).request = true ∧
        (t.markers.get m).pulseEnd = some (s.markerTime + max (s.markers.get m).width 1)) ∧
      t.queue = s.queue ∧ t.plan = s.plan ∧ t.channels = s.channels ∧ t.timebase = s.timebase) ∧
  ∀ (r : Record) (seg : Nat), r.gateIndex < 2 ^ 32 →
    let f := r.flags
    let flags (kind : Nat) : Nat :=
      kind * 2 ^ 14 + r.values.toNat * 2 ^ 11 + f.stopped.toNat * 2 ^ 10 + f.noSignal.toNat * 2 ^ 9 +
        f.closeLate.toNat * 2 ^ 8 + f.short.toNat * 2 ^ 7 + f.epochStep.toNat * 2 ^ 6 +
        f.gap.toNat * 2 ^ 5 + f.nominal.toNat * 2 ^ 4 + f.unepoched.toNat * 2 ^ 3 +
        f.reorder.toNat * 2 ^ 2 + f.lateEdge.toNat * 2 ^ 1 + f.saturated.toNat
    let head (kind : Nat) : Nat := r.seq.toNat * 2 ^ 48 + r.gateIndex * 2 ^ 16 + flags kind
    (∀ (p n g q : Nat) (t0 t1 : Stamp), r.body = .rate p n t0 t1 g q → p < 2 ^ 24 → n < 2 ^ 40 →
      g < 2 ^ 64 → q < 2 ^ 72 → seg < 7 →
      let bytes := head 0 * 2 ^ 328 + p * 2 ^ 304 + n * 2 ^ 264 + t0.toNat * 2 ^ 200 +
        t1.toNat * 2 ^ 136 + g * 2 ^ 72 + q
      r.segment seg = bytes / 2 ^ (56 * (6 - seg)) % 2 ^ 56) ∧
    (∀ (count least most sum mean : Nat) (stop : Stamp),
      r.body = .interval count least most sum mean stop → count < 2 ^ 16 → least < 2 ^ 56 →
      most < 2 ^ 56 → sum < 2 ^ 64 → mean < 2 ^ 56 → seg < 7 →
      let bytes := head 1 * 2 ^ 328 + count * 2 ^ 312 + least * 2 ^ 256 + most * 2 ^ 200 +
        sum * 2 ^ 136 + mean * 2 ^ 80 + stop.toNat * 2 ^ 16
      r.segment seg = bytes / 2 ^ (56 * (6 - seg)) % 2 ^ 56) ∧
    (∀ (countA countB : Nat) (net : Int) (opened closed : Stamp),
      r.body = .total countA countB net opened closed → countA < 2 ^ 40 → countB < 2 ^ 40 → seg < 6 →
      let bytes := head 2 * 2 ^ 272 + countA * 2 ^ 232 + countB * 2 ^ 192 +
        (net % 2 ^ 48).toNat * 2 ^ 144 + opened.toNat * 2 ^ 80 + closed.toNat * 2 ^ 16
      r.segment seg = bytes / 2 ^ (56 * (5 - seg)) % 2 ^ 56)

/-- An offer to the Result Queue (R138, R139, R140, R142): with no pending gap, a record that fits 512 cells
is appended and one that does not is dropped; with one, a GAP record carrying the count and limit mark goes
ahead where it fits. A drop counts in the pending-gap count, held at 65535 with the limit mark, and raises
GAP. An append that brings the occupancy to the threshold from below raises HIGH. -/
def Obligations.OfferToTheResultQueue : Prop :=
  ∀ (r : QueueRecord) (s : State), ResultsSound s.results →
    let q := s.results
    let o := q.occupancy
    let appended (xs : List QueueRecord) (n : Nat) (s : State) : State :=
      let s' := { s with results := { s.results with records := s.results.records ++ xs } }
      if o < q.threshold ∧ q.threshold ≤ n then raise .high [num 10 n] s' else s'
    let dropped (count : Nat) (limit : Bool) (s : State) : State :=
      raise .gap [num 16 count]
        { s with results := { s.results with gaps := count, gapLimit := limit } }
    let noted : State := { s with results := { q with gaps := 0, gapLimit := false } }
    let gap : QueueRecord := .gap q.gaps q.gapLimit
    (q.gaps = 0 →
      (o + r.size ≤ 512 → offer r s = appended [r] (o + r.size) s) ∧
      (512 < o + r.size → offer r s = dropped 1 false s)) ∧
    (0 < q.gaps →
      (o + 1 + r.size ≤ 512 →
        (offer r s).results = (appended [gap, r] (o + 1 + r.size) noted).results ∧
        ((s.command.attns.get AttnKind.high.code).enable = true →
          o < q.threshold → q.threshold ≤ o + 1 + r.size →
          ((offer r s).command.attns.get AttnKind.high.code).flag = true ∧
          ((offer r s).command.attns.get AttnKind.high.code).detail =
            [num 10 (if q.threshold ≤ o + 1 then o + 1 else o + 1 + r.size)])) ∧
      (o + 1 ≤ 512 → 512 < o + 1 + r.size →
        offer r s = dropped 1 false (appended [gap] (o + 1) noted)) ∧
      (o = 512 → offer r s =
        dropped (min 65535 (q.gaps + 1)) (q.gapLimit || decide (q.gaps = 65535)) s))

/-- QUEUE-SET sets the HIGH threshold or is refused RANGE with no effect; the reply carries the threshold
after the command, the occupancy and the pending-gap count; no record is touched and HIGH is not raised
(R143). -/
def Obligations.QueueSetSetsTheThreshold : Prop :=
  ∀ (c : Cell) (n : Nat) (s : State), TakesQuietly s c →
    (n < 1 ∨ 512 < n → exec (.queueSet c n) s = .next (replied c .range
      [num 10 s.results.threshold, num 10 s.results.occupancy, num 16 s.results.gaps]
      (consumed s))) ∧
    (1 ≤ n → n ≤ 512 → exec (.queueSet c n) s = .next (replied c .done
      [num 10 n, num 10 s.results.occupancy, num 16 s.results.gaps]
      { consumed s with results := { s.results with threshold := n } }))

/-! ## Marker Outputs -/

/-- MARK-SET and MARK-LEVEL (R147, R148): RANGE with no effect, or DONE with the one setting written, the
request and hold-until that follow from it, and a transition of the pin where the wanted level then differs
and the hold has run out. The reply carries the marker after the command; that it carries nothing for a marker
of 4 or more is the model's choice (log entry 10), and that a refusal carries the marker its reading (log
entry 17). Hold-until is the last transition plus the width; a node reset's own transition waits for that of
the width before the reset, until the wanted level agrees with the pin, the transition is made, or, by the
model's reading (log entry 33), a MARK-SET of the width recomputes hold-until. The ranges of a source are those
of R148, the starting requests those of Table 10-1, and a gate is open and a step in progress as R149 states.
At a slot event each marker that follows the slot takes its request from the slot as the event leaves it
(R149). -/
def Obligations.MarkerCommands : Prop :=
  (∀ (c : Cell) (i : Fin 4) (s : State), TakesQuietly s c →
    let m := s.markers.get i
    let now := s.markerTime
    let shown (m : Marker) : List Field :=
      m.source.fields ++ [bit m.invert, num 16 m.width, num 1 (if m.held then 0 else 1),
        num 1 m.pin.code]
    let settled (m : Marker) : Marker :=
      let wanted : PinLevel := if m.request = m.invert then .low else .high
      if wanted = m.pin then { m with resetHold := none }
      else if m.resetHold.getD (m.lastTransition + m.width) ≤ now then
        { m with pin := wanted, lastTransition := now, resetHold := none }
      else m
    let done (m : Marker) : Host.Outcome State Fault Refusal :=
      .next (replied c .done (shown m) { consumed s with markers := s.markers.set i m })
    let refused : Host.Outcome State Fault Refusal :=
      .next (replied c .range (shown m) (consumed s))
    (∀ (a : SourceArg) (v : MarkerSource), sourceOf a = some v →
      exec (.markSetSource c i a) s = done (settled
        { m with source := v, pulseEnd := none, request := startingRequest s m.held v })) ∧
    (∀ a, sourceOf a = none → exec (.markSetSource c i a) s = refused) ∧
    exec (.markSetInvert c i 0) s = done (settled { m with invert := false }) ∧
    exec (.markSetInvert c i 1) s = done (settled { m with invert := true }) ∧
    (∀ v, 2 ≤ v → exec (.markSetInvert c i v) s = refused) ∧
    (∀ w, w ≤ 65535 → exec (.markSetWidth c i w) s =
      done (settled { m with width := w, resetHold := none })) ∧
    (∀ w, 65535 < w → exec (.markSetWidth c i w) s = refused) ∧
    (∀ b : Bool,
      (m.source = .level → exec (.markLevel c i (if b then 0 else 1)) s =
        done (settled { m with held := b, request := b })) ∧
      (m.source ≠ .level → exec (.markLevel c i (if b then 0 else 1)) s =
        done { m with held := b })) ∧
    (∀ v, 2 ≤ v → exec (.markLevel c i v) s = refused) ∧
    ∀ n, 4 ≤ n →
      (∀ a, exec (.markSetSource c n a) s = .next (replied c .range [] (consumed s))) ∧
      (∀ v, exec (.markSetInvert c n v) s = .next (replied c .range [] (consumed s))) ∧
      (∀ v, exec (.markSetWidth c n v) s = .next (replied c .range [] (consumed s))) ∧
      ∀ v, exec (.markLevel c n v) s = .next (replied c .range [] (consumed s))) ∧
  -- the ranges of a source
  (∀ (i : Fin 8) (b : Fin 4) (ch : Fin 16) (p n k : Nat),
    sourceOf .off = some .off ∧ sourceOf .level = some .level ∧
    sourceOf (.gate i) = some (.gate i) ∧ sourceOf (.armed i) = some (.armed i) ∧
    sourceOf (.done i) = some (.done i) ∧ sourceOf (.step i b) = some (.step i b) ∧
    sourceOf (.divider ch) = some (.divider ch) ∧
    (2 ≤ p → p ≤ 2 ^ 32 → sourceOf (.timebase p) = some (.timebase p)) ∧
    (8 ≤ n → sourceOf (.gate n) = none ∧ sourceOf (.armed n) = none ∧ sourceOf (.done n) = none) ∧
    (8 ≤ n ∨ 4 ≤ k → sourceOf (.step n k) = none) ∧
    (16 ≤ n → sourceOf (.divider n) = none) ∧
    (p < 2 ∨ 2 ^ 32 < p → sourceOf (.timebase p) = none) ∧ sourceOf (.other n) = none) ∧
  -- the starting requests
  (∀ (s : State) (held : Bool) (i : Fin 8) (b : Fin 4) (ch : Fin 16) (p : Nat),
    let x := s.slots.get i
    startingRequest s held .off = false ∧ startingRequest s held .level = held ∧
    (startingRequest s held (.gate i) = true ↔
      x.state = .opening ∨ x.state = .rateCounting ∨ x.state = .seekA ∨ x.state = .seekB ∨
        x.state = .totalCounting ∨ x.state = .held ∨
        (x.state = .closing ∧ x.run.pendingGate ≠ none)) ∧
    (startingRequest s held (.armed i) = true ↔ x.state = .armed) ∧
    (startingRequest s held (.step i b) = true ↔ x.state ≠ .idle ∧
      (∃ f, x.config.gate = .plan f) ∧ x.run.stepEnd ≠ none ∧
      ∃ q : PlanStep, x.run.stepRecord = some q ∧ q.markers.getLsbD b.val = true) ∧
    startingRequest s held (.done i) = false ∧ startingRequest s held (.divider ch) = false ∧
    (startingRequest s held (.timebase p) = true ↔ s.timebase.count.toNat % p < p / 2)) ∧
  -- a slot event and the markers that follow the slot
  ∀ (s : State) (i : Fin 8) (out : SlotOut) (k : Fin 4), (∀ r ∈ out.2, r.slot = i) →
    let t := applySlot i out s
    let m := s.markers.get k
    let now := s.markerTime
    ((m.source = .gate i ∨ m.source = .armed i ∨ ∃ b, m.source = .step i b) →
      t.markers.get k =
        let request := startingRequest t m.held m.source
        let wanted : PinLevel := if request = m.invert then .low else .high
        if wanted = m.pin then { m with request := request, resetHold := none }
        else if m.resetHold.getD (m.lastTransition + m.width) ≤ now then
          { m with request := request, pin := wanted, lastTransition := now, resetHold := none }
        else { m with request := request }) ∧
    (m.source ≠ .gate i → m.source ≠ .armed i → (∀ b, m.source ≠ .step i b) →
      m.source ≠ .done i → t.markers.get k = m)

/-- The hold's expiry and the pulse's end of a marker (R147, R152): from the period whose marker time is the
point on, the row makes the deferred transition, or ends the pulse and requests its transition; before that
the rows have no effect. At the period's end what is due at its marker time has been taken, the pin shows the
level that the period's transitions left, and marker time goes on, still at or before every pulse end: a
transition at a point shows at the end of that period (R147, R153). That a row may take an event ahead of the
period's end is the model's choice (log entry 3), and that all which falls at a period's end has the marker
time of the period that ends is its reading (log entry 12). -/
def Obligations.MarkerEvents : Prop :=
  (∀ (i : Fin 4) (s : State), s.held = false →
    let m := s.markers.get i
    let now := s.markerTime
    let wanted : PinLevel := if m.request = m.invert then .low else .high
    let fallen : PinLevel := if m.invert then .high else .low
    let hold (m : Marker) : Nat := m.resetHold.getD (m.lastTransition + m.width)
    (wanted ≠ m.pin → hold m ≤ now → exec (.markerHoldExpiry i) s =
      .next { s with
        markers :=
          s.markers.set i
            { m with pin := wanted, lastTransition := now, resetHold := none } }) ∧
    (wanted = m.pin ∨ now < hold m → exec (.markerHoldExpiry i) s = .next s) ∧
    (∀ p, m.pulseEnd = some p →
      (p ≤ now → fallen ≠ m.pin → hold m ≤ now → exec (.donePulseEnd i) s =
        .next { s with
          markers :=
            s.markers.set i
              { m with
                request := false, pulseEnd := none, pin := fallen, lastTransition := now
                resetHold := none } }) ∧
      (p ≤ now → fallen = m.pin → exec (.donePulseEnd i) s =
        .next { s with
          markers :=
            s.markers.set i { m with request := false, pulseEnd := none, resetHold := none } }) ∧
      (p ≤ now → fallen ≠ m.pin → now < hold m → exec (.donePulseEnd i) s =
        .next { s with
          markers := s.markers.set i { m with request := false, pulseEnd := none } }) ∧
      (now < p → exec (.donePulseEnd i) s = .next s)) ∧
    (m.pulseEnd = none → exec (.donePulseEnd i) s = .next s)) ∧
  ∀ (s t : State) (i : Fin 4), s.held = false → MarkerSound (s.markers.get i) →
    exec .timebaseAdvance s = .next t →
    (t.markers.get i).shown = (t.markers.get i).pin ∧
    (t.markers.get i).source = (s.markers.get i).source ∧
    (t.markers.get i).invert = (s.markers.get i).invert ∧
    (t.markers.get i).width = (s.markers.get i).width ∧
    (∀ p, (s.markers.get i).source = .timebase p →
      (t.markers.get i).request = decide (t.timebase.count.toNat % p < p / 2)) ∧
    (∀ p, (t.markers.get i).pulseEnd = some p → t.markerTime ≤ p) ∧
    ((t.markers.get i).resetHold.getD
        ((t.markers.get i).lastTransition + (t.markers.get i).width) < t.markerTime →
      ((t.markers.get i).pin = .high ↔ (t.markers.get i).request ≠ (t.markers.get i).invert))

/-! ## Invariants that every step keeps -/

/-- No two entries of the Capture Map whose action is TAKE or COPY name the same channel (R22): every step
keeps it. -/
def Obligations.EveryStepKeepsTheMapSound : Prop :=
  ∀ s t : State, MapSound s.map → step s = .next t → MapSound t.map

/-- Every step keeps the Ordering Queue's entries at most 256, later than W, and in queue order (R75, R76,
R79, R81, R82). -/
def Obligations.EveryStepKeepsTheOrderingQueueInOrder : Prop :=
  ∀ s t : State, OrderSound s.queue → step s = .next t → OrderSound t.queue

/-- Every step keeps the Result Queue, the reply queue, the pending-notice set and the load buffer within
their bounds and forms (R137, R140, R166, R170, R173). -/
def Obligations.EveryStepKeepsTheQueuesSound : Prop :=
  ∀ s t : State, step s = .next t →
    (ResultsSound s.results → ResultsSound t.results) ∧
    (RepliesSound s.command → RepliesSound t.command) ∧
    (NoticesSound s.command → NoticesSound t.command) ∧
    (LoadSound s.command.load → LoadSound t.command.load)

/-- Every step keeps the blocks sound: tables rising and their updates within 500 periods (R50, R55), the
calibration's counts (R62, R65, R66), a staged load and a calibration never on one table (R57), an IDLE slot
with no run but its last gate index, kept by the model's reading (log entry 32), and every configuration in
range (R89, R91), the plan, node, timebase, channels and markers in range (R10, R13, R32, R33, R114, R115,
R146, R148, R167), and the power-on values while RESETn is low (R177). -/
def Obligations.EveryStepKeepsTheBlocksSound : Prop :=
  ∀ s t : State, step s = .next t →
    ((∀ n, TableSound (s.tables.get n)) → ∀ n, TableSound (t.tables.get n)) ∧
    (CalSound s.cal → CalSound t.cal) ∧
    (TablesApart s → TablesApart t) ∧
    ((∀ i, SlotSound (s.slots.get i)) → ∀ i, SlotSound (t.slots.get i)) ∧
    ((∀ i, ConfigSound (s.slots.get i).config) → ∀ i, ConfigSound (t.slots.get i).config) ∧
    (PlanSound s.plan → PlanSound t.plan) ∧
    (NodeSound s.node → NodeSound t.node) ∧
    (TimebaseSound s.timebase → TimebaseSound t.timebase) ∧
    ((∀ n, ChannelSound (s.channels.get n)) → ∀ n, ChannelSound (t.channels.get n)) ∧
    ((∀ m, MarkerSound (s.markers.get m)) → ∀ m, MarkerSound (t.markers.get m)) ∧
    (HeldSound s → HeldSound t)

/-- The reset state meets every invariant above. -/
def Obligations.ResetMeetsTheInvariants : Prop :=
  let s := State.reset
  MapSound s.map ∧ OrderSound s.queue ∧ ResultsSound s.results ∧ RepliesSound s.command ∧
    NoticesSound s.command ∧ LoadSound s.command.load ∧ (∀ n, TableSound (s.tables.get n)) ∧
    CalSound s.cal ∧ TablesApart s ∧ (∀ i, SlotSound (s.slots.get i)) ∧
    (∀ i, ConfigSound (s.slots.get i).config) ∧ PlanSound s.plan ∧ NodeSound s.node ∧
    TimebaseSound s.timebase ∧ (∀ n, ChannelSound (s.channels.get n)) ∧
    (∀ m, MarkerSound (s.markers.get m)) ∧ HeldSound s
end

