-- ==== Sys2Proof/Laws/Bank.lean ====
section
/-! SUPPORT. The laws of banks: a record read after a write, a fill, a tabulation or a map. -/

namespace Sys2Proof.Bank

variable {α β : Type} {n : Nat}

theorem get_eq (b : Bank α n) (i : Fin n) : b.get i = b.cells[i.val]'(by rw [b.size_eq]; exact i.2) :=
  rfl

theorem ext_get {a b : Bank α n} (h : ∀ i, a.get i = b.get i) : a = b := by
  obtain ⟨as, ha⟩ := a
  obtain ⟨bs, hb⟩ := b
  have : as = bs := by
    apply List.ext_getElem (by rw [ha, hb])
    intro i h1 _
    simpa [get_eq] using h ⟨i, by rw [← ha]; exact h1⟩
  subst this
  rfl

@[simp] theorem get_set_self (b : Bank α n) (i : Fin n) (x : α) : (b.set i x).get i = x := by
  simp [get_eq, set]

theorem get_set_ne (b : Bank α n) {i j : Fin n} (x : α) (h : j ≠ i) :
    (b.set i x).get j = b.get j := by
  have : i.val ≠ j.val := fun e => h (Fin.ext e.symm)
  simp [get_eq, set, this]

theorem get_set (b : Bank α n) (i j : Fin n) (x : α) :
    (b.set i x).get j = if j = i then x else b.get j := by
  by_cases h : j = i
  · subst h; simp
  · simp [h, get_set_ne b x h]

@[simp] theorem get_fill (x : α) (i : Fin n) : (fill n x).get i = x := by
  simp [get_eq, fill]

@[simp] theorem get_tabulate (f : Fin n → α) (i : Fin n) : (tabulate f).get i = f i := by
  simp [get_eq, tabulate]

@[simp] theorem get_map (f : α → β) (b : Bank α n) (i : Fin n) : (b.map f).get i = f (b.get i) := by
  simp [get_eq, map]

@[simp] theorem set_get_self (b : Bank α n) (i : Fin n) : b.set i (b.get i) = b :=
  ext_get fun j => by by_cases h : j = i <;> simp [get_set, h]

theorem get_mem (b : Bank α n) (i : Fin n) : b.get i ∈ b.cells := by
  simp [get_eq]

theorem mem_iff (b : Bank α n) (x : α) : x ∈ b.cells ↔ ∃ i, b.get i = x := by
  constructor
  · intro h
    obtain ⟨k, hk, e⟩ := List.getElem_of_mem h
    exact ⟨⟨k, by rw [← b.size_eq]; exact hk⟩, by simpa [get_eq] using e⟩
  · rintro ⟨i, rfl⟩
    exact b.get_mem i

end Sys2Proof.Bank
end

