-- ==== Sys2Proof/Laws/Line.lean ====
section
/-! SUPPORT. What the receiver reads of a stream of line symbols: the groups that were sent, and nothing
while a cell is not whole. -/

namespace Sys2Proof.Machine

theorem symbolGroup_groupSymbols (g : Group) :
    symbolGroup (g.getMsbD 0) (g.getMsbD 1) (g.getMsbD 2) (g.getMsbD 3) (g.getMsbD 4) = g := by
  revert g; decide

/-- The symbols of some groups are read as those groups. -/
theorem takeGroups_lineSymbols (gs : List Group) (others : List Bool) :
    takeGroups gs.length (lineSymbols gs ++ others) = some (gs, others) := by
  induction gs with
  | nil => rfl
  | cons g gs ih =>
    have e : lineSymbols (g :: gs) ++ others =
        groupSymbols g ++ (lineSymbols gs ++ others) := by simp [lineSymbols]
    simp only [e, groupSymbols, List.length_cons, List.cons_append, List.nil_append, takeGroups, ih,
      symbolGroup_groupSymbols]

/-- Groups are read wherever there are symbols enough for them. -/
theorem takeGroups_of_le (n : Nat) (line : List Bool) (h : 5 * n ≤ line.length) :
    ∃ gs others, takeGroups n line = some (gs, others) ∧ gs.length = n := by
  induction n generalizing line with
  | zero => exact ⟨[], line, rfl, rfl⟩
  | succ n ih =>
    match line, h with
    | a :: b :: c :: d :: e :: line, h =>
      obtain ⟨gs, others, hg, hn⟩ := ih line (by simp only [List.length_cons] at h; omega)
      exact ⟨symbolGroup a b c d e :: gs, others, by rw [takeGroups, hg], by rw [List.length_cons, hn]⟩

/-- No groups are read where there are too few symbols. -/
theorem takeGroups_of_lt (n : Nat) (line : List Bool) (h : line.length < 5 * n) :
    takeGroups n line = none := by
  induction n generalizing line with
  | zero => omega
  | succ n ih =>
    match line, h with
    | [], _ | [_], _ | [_, _], _ | [_, _, _], _ | [_, _, _, _], _ => rfl
    | a :: b :: c :: d :: e :: line, h =>
      rw [takeGroups, ih line (by simp only [List.length_cons] at h; omega)]

end Sys2Proof.Machine
end

