-- ==== Sys2Proof/Laws/State.lean ====
section
/-!
SUPPORT. What the small updates of the state leave in each field, so that no proof unfolds a record
update.
-/

namespace Sys2Proof.Machine

@[simp] theorem State.setChannel_pending (s : State) (c : Fin 16) (x : Channel) : (s.setChannel c x).pending = s.pending := rfl
@[simp] theorem State.setChannel_held (s : State) (c : Fin 16) (x : Channel) : (s.setChannel c x).held = s.held := rfl
@[simp] theorem State.setChannel_link (s : State) (c : Fin 16) (x : Channel) : (s.setChannel c x).link = s.link := rfl
@[simp] theorem State.setChannel_node (s : State) (c : Fin 16) (x : Channel) : (s.setChannel c x).node = s.node := rfl
@[simp] theorem State.setChannel_timebase (s : State) (c : Fin 16) (x : Channel) : (s.setChannel c x).timebase = s.timebase := rfl
@[simp] theorem State.setChannel_map (s : State) (c : Fin 16) (x : Channel) : (s.setChannel c x).map = s.map := rfl
@[simp] theorem State.setChannel_channels (s : State) (c : Fin 16) (x : Channel) :
    (s.setChannel c x).channels = s.channels.set c x := rfl
@[simp] theorem State.setChannel_tables (s : State) (c : Fin 16) (x : Channel) : (s.setChannel c x).tables = s.tables := rfl
@[simp] theorem State.setChannel_cal (s : State) (c : Fin 16) (x : Channel) : (s.setChannel c x).cal = s.cal := rfl
@[simp] theorem State.setChannel_queue (s : State) (c : Fin 16) (x : Channel) : (s.setChannel c x).queue = s.queue := rfl
@[simp] theorem State.setChannel_slots (s : State) (c : Fin 16) (x : Channel) : (s.setChannel c x).slots = s.slots := rfl
@[simp] theorem State.setChannel_plan (s : State) (c : Fin 16) (x : Channel) : (s.setChannel c x).plan = s.plan := rfl
@[simp] theorem State.setChannel_results (s : State) (c : Fin 16) (x : Channel) : (s.setChannel c x).results = s.results := rfl
@[simp] theorem State.setChannel_markerTime (s : State) (c : Fin 16) (x : Channel) : (s.setChannel c x).markerTime = s.markerTime := rfl
@[simp] theorem State.setChannel_markers (s : State) (c : Fin 16) (x : Channel) : (s.setChannel c x).markers = s.markers := rfl
@[simp] theorem State.setChannel_command (s : State) (c : Fin 16) (x : Channel) : (s.setChannel c x).command = s.command := rfl
@[simp] theorem State.setChannel_choices (s : State) (c : Fin 16) (x : Channel) : (s.setChannel c x).choices = s.choices := rfl

@[simp] theorem State.setTable_pending (s : State) (t : Fin 8) (x : Table) : (s.setTable t x).pending = s.pending := rfl
@[simp] theorem State.setTable_held (s : State) (t : Fin 8) (x : Table) : (s.setTable t x).held = s.held := rfl
@[simp] theorem State.setTable_link (s : State) (t : Fin 8) (x : Table) : (s.setTable t x).link = s.link := rfl
@[simp] theorem State.setTable_node (s : State) (t : Fin 8) (x : Table) : (s.setTable t x).node = s.node := rfl
@[simp] theorem State.setTable_timebase (s : State) (t : Fin 8) (x : Table) : (s.setTable t x).timebase = s.timebase := rfl
@[simp] theorem State.setTable_map (s : State) (t : Fin 8) (x : Table) : (s.setTable t x).map = s.map := rfl
@[simp] theorem State.setTable_channels (s : State) (t : Fin 8) (x : Table) : (s.setTable t x).channels = s.channels := rfl
@[simp] theorem State.setTable_tables (s : State) (t : Fin 8) (x : Table) :
    (s.setTable t x).tables = s.tables.set t x := rfl
@[simp] theorem State.setTable_cal (s : State) (t : Fin 8) (x : Table) : (s.setTable t x).cal = s.cal := rfl
@[simp] theorem State.setTable_queue (s : State) (t : Fin 8) (x : Table) : (s.setTable t x).queue = s.queue := rfl
@[simp] theorem State.setTable_slots (s : State) (t : Fin 8) (x : Table) : (s.setTable t x).slots = s.slots := rfl
@[simp] theorem State.setTable_plan (s : State) (t : Fin 8) (x : Table) : (s.setTable t x).plan = s.plan := rfl
@[simp] theorem State.setTable_results (s : State) (t : Fin 8) (x : Table) : (s.setTable t x).results = s.results := rfl
@[simp] theorem State.setTable_markerTime (s : State) (t : Fin 8) (x : Table) : (s.setTable t x).markerTime = s.markerTime := rfl
@[simp] theorem State.setTable_markers (s : State) (t : Fin 8) (x : Table) : (s.setTable t x).markers = s.markers := rfl
@[simp] theorem State.setTable_command (s : State) (t : Fin 8) (x : Table) : (s.setTable t x).command = s.command := rfl
@[simp] theorem State.setTable_choices (s : State) (t : Fin 8) (x : Table) : (s.setTable t x).choices = s.choices := rfl

@[simp] theorem State.setSlot_pending (s : State) (i : Fin 8) (x : Slot) : (s.setSlot i x).pending = s.pending := rfl
@[simp] theorem State.setSlot_held (s : State) (i : Fin 8) (x : Slot) : (s.setSlot i x).held = s.held := rfl
@[simp] theorem State.setSlot_link (s : State) (i : Fin 8) (x : Slot) : (s.setSlot i x).link = s.link := rfl
@[simp] theorem State.setSlot_node (s : State) (i : Fin 8) (x : Slot) : (s.setSlot i x).node = s.node := rfl
@[simp] theorem State.setSlot_timebase (s : State) (i : Fin 8) (x : Slot) : (s.setSlot i x).timebase = s.timebase := rfl
@[simp] theorem State.setSlot_map (s : State) (i : Fin 8) (x : Slot) : (s.setSlot i x).map = s.map := rfl
@[simp] theorem State.setSlot_channels (s : State) (i : Fin 8) (x : Slot) : (s.setSlot i x).channels = s.channels := rfl
@[simp] theorem State.setSlot_tables (s : State) (i : Fin 8) (x : Slot) : (s.setSlot i x).tables = s.tables := rfl
@[simp] theorem State.setSlot_cal (s : State) (i : Fin 8) (x : Slot) : (s.setSlot i x).cal = s.cal := rfl
@[simp] theorem State.setSlot_queue (s : State) (i : Fin 8) (x : Slot) : (s.setSlot i x).queue = s.queue := rfl
@[simp] theorem State.setSlot_slots (s : State) (i : Fin 8) (x : Slot) :
    (s.setSlot i x).slots = s.slots.set i x := rfl
@[simp] theorem State.setSlot_plan (s : State) (i : Fin 8) (x : Slot) : (s.setSlot i x).plan = s.plan := rfl
@[simp] theorem State.setSlot_results (s : State) (i : Fin 8) (x : Slot) : (s.setSlot i x).results = s.results := rfl
@[simp] theorem State.setSlot_markerTime (s : State) (i : Fin 8) (x : Slot) : (s.setSlot i x).markerTime = s.markerTime := rfl
@[simp] theorem State.setSlot_markers (s : State) (i : Fin 8) (x : Slot) : (s.setSlot i x).markers = s.markers := rfl
@[simp] theorem State.setSlot_command (s : State) (i : Fin 8) (x : Slot) : (s.setSlot i x).command = s.command := rfl
@[simp] theorem State.setSlot_choices (s : State) (i : Fin 8) (x : Slot) : (s.setSlot i x).choices = s.choices := rfl

@[simp] theorem State.setMarker_pending (s : State) (m : Fin 4) (x : Marker) : (s.setMarker m x).pending = s.pending := rfl
@[simp] theorem State.setMarker_held (s : State) (m : Fin 4) (x : Marker) : (s.setMarker m x).held = s.held := rfl
@[simp] theorem State.setMarker_link (s : State) (m : Fin 4) (x : Marker) : (s.setMarker m x).link = s.link := rfl
@[simp] theorem State.setMarker_node (s : State) (m : Fin 4) (x : Marker) : (s.setMarker m x).node = s.node := rfl
@[simp] theorem State.setMarker_timebase (s : State) (m : Fin 4) (x : Marker) : (s.setMarker m x).timebase = s.timebase := rfl
@[simp] theorem State.setMarker_map (s : State) (m : Fin 4) (x : Marker) : (s.setMarker m x).map = s.map := rfl
@[simp] theorem State.setMarker_channels (s : State) (m : Fin 4) (x : Marker) : (s.setMarker m x).channels = s.channels := rfl
@[simp] theorem State.setMarker_tables (s : State) (m : Fin 4) (x : Marker) : (s.setMarker m x).tables = s.tables := rfl
@[simp] theorem State.setMarker_cal (s : State) (m : Fin 4) (x : Marker) : (s.setMarker m x).cal = s.cal := rfl
@[simp] theorem State.setMarker_queue (s : State) (m : Fin 4) (x : Marker) : (s.setMarker m x).queue = s.queue := rfl
@[simp] theorem State.setMarker_slots (s : State) (m : Fin 4) (x : Marker) : (s.setMarker m x).slots = s.slots := rfl
@[simp] theorem State.setMarker_plan (s : State) (m : Fin 4) (x : Marker) : (s.setMarker m x).plan = s.plan := rfl
@[simp] theorem State.setMarker_results (s : State) (m : Fin 4) (x : Marker) : (s.setMarker m x).results = s.results := rfl
@[simp] theorem State.setMarker_markerTime (s : State) (m : Fin 4) (x : Marker) : (s.setMarker m x).markerTime = s.markerTime := rfl
@[simp] theorem State.setMarker_markers (s : State) (m : Fin 4) (x : Marker) :
    (s.setMarker m x).markers = s.markers.set m x := rfl
@[simp] theorem State.setMarker_command (s : State) (m : Fin 4) (x : Marker) : (s.setMarker m x).command = s.command := rfl
@[simp] theorem State.setMarker_choices (s : State) (m : Fin 4) (x : Marker) : (s.setMarker m x).choices = s.choices := rfl

@[simp] theorem pushSlot_pending (t : TxSlot) (s : State) : (pushSlot t s).pending = s.pending := rfl
@[simp] theorem pushSlot_held (t : TxSlot) (s : State) : (pushSlot t s).held = s.held := rfl
@[simp] theorem pushSlot_link (t : TxSlot) (s : State) :
    (pushSlot t s).link = { s.link with slots := s.link.slots ++ [t] } := rfl
@[simp] theorem pushSlot_node (t : TxSlot) (s : State) : (pushSlot t s).node = s.node := rfl
@[simp] theorem pushSlot_timebase (t : TxSlot) (s : State) : (pushSlot t s).timebase = s.timebase := rfl
@[simp] theorem pushSlot_map (t : TxSlot) (s : State) : (pushSlot t s).map = s.map := rfl
@[simp] theorem pushSlot_channels (t : TxSlot) (s : State) : (pushSlot t s).channels = s.channels := rfl
@[simp] theorem pushSlot_tables (t : TxSlot) (s : State) : (pushSlot t s).tables = s.tables := rfl
@[simp] theorem pushSlot_cal (t : TxSlot) (s : State) : (pushSlot t s).cal = s.cal := rfl
@[simp] theorem pushSlot_queue (t : TxSlot) (s : State) : (pushSlot t s).queue = s.queue := rfl
@[simp] theorem pushSlot_slots (t : TxSlot) (s : State) : (pushSlot t s).slots = s.slots := rfl
@[simp] theorem pushSlot_plan (t : TxSlot) (s : State) : (pushSlot t s).plan = s.plan := rfl
@[simp] theorem pushSlot_results (t : TxSlot) (s : State) : (pushSlot t s).results = s.results := rfl
@[simp] theorem pushSlot_markerTime (t : TxSlot) (s : State) : (pushSlot t s).markerTime = s.markerTime := rfl
@[simp] theorem pushSlot_markers (t : TxSlot) (s : State) : (pushSlot t s).markers = s.markers := rfl
@[simp] theorem pushSlot_command (t : TxSlot) (s : State) : (pushSlot t s).command = s.command := rfl
@[simp] theorem pushSlot_choices (t : TxSlot) (s : State) : (pushSlot t s).choices = s.choices := rfl

@[simp] theorem toHunt_pending (s : State) : (toHunt s).pending = s.pending := rfl
@[simp] theorem toHunt_held (s : State) : (toHunt s).held = s.held := rfl
@[simp] theorem toHunt_link (s : State) :
    (toHunt s).link = { s.link with align := .hunt } := rfl
@[simp] theorem toHunt_node (s : State) : (toHunt s).node = s.node := rfl
@[simp] theorem toHunt_timebase (s : State) : (toHunt s).timebase = s.timebase := rfl
@[simp] theorem toHunt_map (s : State) : (toHunt s).map = s.map := rfl
@[simp] theorem toHunt_channels (s : State) : (toHunt s).channels = s.channels := rfl
@[simp] theorem toHunt_tables (s : State) : (toHunt s).tables = s.tables := rfl
@[simp] theorem toHunt_cal (s : State) : (toHunt s).cal = s.cal := rfl
@[simp] theorem toHunt_queue (s : State) : (toHunt s).queue = s.queue := rfl
@[simp] theorem toHunt_slots (s : State) : (toHunt s).slots = s.slots := rfl
@[simp] theorem toHunt_plan (s : State) : (toHunt s).plan = s.plan := rfl
@[simp] theorem toHunt_results (s : State) : (toHunt s).results = s.results := rfl
@[simp] theorem toHunt_markerTime (s : State) : (toHunt s).markerTime = s.markerTime := rfl
@[simp] theorem toHunt_markers (s : State) : (toHunt s).markers = s.markers := rfl
@[simp] theorem toHunt_command (s : State) : (toHunt s).command = s.command := rfl
@[simp] theorem toHunt_choices (s : State) : (toHunt s).choices = s.choices := rfl

@[simp] theorem transmit_pending (c : TxCell) (s : State) : (transmit c s).pending = s.pending := rfl
@[simp] theorem transmit_held (c : TxCell) (s : State) : (transmit c s).held = s.held := rfl
@[simp] theorem transmit_link (c : TxCell) (s : State) :
    (transmit c s).link = { s.link with out := c } := rfl
@[simp] theorem transmit_node (c : TxCell) (s : State) : (transmit c s).node = s.node := rfl
@[simp] theorem transmit_timebase (c : TxCell) (s : State) : (transmit c s).timebase = s.timebase := rfl
@[simp] theorem transmit_map (c : TxCell) (s : State) : (transmit c s).map = s.map := rfl
@[simp] theorem transmit_channels (c : TxCell) (s : State) : (transmit c s).channels = s.channels := rfl
@[simp] theorem transmit_tables (c : TxCell) (s : State) : (transmit c s).tables = s.tables := rfl
@[simp] theorem transmit_cal (c : TxCell) (s : State) : (transmit c s).cal = s.cal := rfl
@[simp] theorem transmit_queue (c : TxCell) (s : State) : (transmit c s).queue = s.queue := rfl
@[simp] theorem transmit_slots (c : TxCell) (s : State) : (transmit c s).slots = s.slots := rfl
@[simp] theorem transmit_plan (c : TxCell) (s : State) : (transmit c s).plan = s.plan := rfl
@[simp] theorem transmit_results (c : TxCell) (s : State) : (transmit c s).results = s.results := rfl
@[simp] theorem transmit_markerTime (c : TxCell) (s : State) : (transmit c s).markerTime = s.markerTime := rfl
@[simp] theorem transmit_markers (c : TxCell) (s : State) : (transmit c s).markers = s.markers := rfl
@[simp] theorem transmit_command (c : TxCell) (s : State) : (transmit c s).command = s.command := rfl
@[simp] theorem transmit_choices (c : TxCell) (s : State) : (transmit c s).choices = s.choices := rfl

@[simp] theorem emptyLoad_pending (s : State) : (emptyLoad s).pending = s.pending := rfl
@[simp] theorem emptyLoad_held (s : State) : (emptyLoad s).held = s.held := rfl
@[simp] theorem emptyLoad_link (s : State) : (emptyLoad s).link = s.link := rfl
@[simp] theorem emptyLoad_node (s : State) : (emptyLoad s).node = s.node := rfl
@[simp] theorem emptyLoad_timebase (s : State) : (emptyLoad s).timebase = s.timebase := rfl
@[simp] theorem emptyLoad_map (s : State) : (emptyLoad s).map = s.map := rfl
@[simp] theorem emptyLoad_channels (s : State) : (emptyLoad s).channels = s.channels := rfl
@[simp] theorem emptyLoad_tables (s : State) : (emptyLoad s).tables = s.tables := rfl
@[simp] theorem emptyLoad_cal (s : State) : (emptyLoad s).cal = s.cal := rfl
@[simp] theorem emptyLoad_queue (s : State) : (emptyLoad s).queue = s.queue := rfl
@[simp] theorem emptyLoad_slots (s : State) : (emptyLoad s).slots = s.slots := rfl
@[simp] theorem emptyLoad_plan (s : State) : (emptyLoad s).plan = s.plan := rfl
@[simp] theorem emptyLoad_results (s : State) : (emptyLoad s).results = s.results := rfl
@[simp] theorem emptyLoad_markerTime (s : State) : (emptyLoad s).markerTime = s.markerTime := rfl
@[simp] theorem emptyLoad_markers (s : State) : (emptyLoad s).markers = s.markers := rfl
@[simp] theorem emptyLoad_command (s : State) :
    (emptyLoad s).command = { s.command with load := .reset } := rfl
@[simp] theorem emptyLoad_choices (s : State) : (emptyLoad s).choices = s.choices := rfl

@[simp] theorem queueReply_pending (g : Byte) (k : ReplyCode) (fs : List Field) (s : State) : (queueReply g k fs s).pending = s.pending := rfl
@[simp] theorem queueReply_held (g : Byte) (k : ReplyCode) (fs : List Field) (s : State) : (queueReply g k fs s).held = s.held := rfl
@[simp] theorem queueReply_link (g : Byte) (k : ReplyCode) (fs : List Field) (s : State) : (queueReply g k fs s).link = s.link := rfl
@[simp] theorem queueReply_node (g : Byte) (k : ReplyCode) (fs : List Field) (s : State) : (queueReply g k fs s).node = s.node := rfl
@[simp] theorem queueReply_timebase (g : Byte) (k : ReplyCode) (fs : List Field) (s : State) : (queueReply g k fs s).timebase = s.timebase := rfl
@[simp] theorem queueReply_map (g : Byte) (k : ReplyCode) (fs : List Field) (s : State) : (queueReply g k fs s).map = s.map := rfl
@[simp] theorem queueReply_channels (g : Byte) (k : ReplyCode) (fs : List Field) (s : State) : (queueReply g k fs s).channels = s.channels := rfl
@[simp] theorem queueReply_tables (g : Byte) (k : ReplyCode) (fs : List Field) (s : State) : (queueReply g k fs s).tables = s.tables := rfl
@[simp] theorem queueReply_cal (g : Byte) (k : ReplyCode) (fs : List Field) (s : State) : (queueReply g k fs s).cal = s.cal := rfl
@[simp] theorem queueReply_queue (g : Byte) (k : ReplyCode) (fs : List Field) (s : State) : (queueReply g k fs s).queue = s.queue := rfl
@[simp] theorem queueReply_slots (g : Byte) (k : ReplyCode) (fs : List Field) (s : State) : (queueReply g k fs s).slots = s.slots := rfl
@[simp] theorem queueReply_plan (g : Byte) (k : ReplyCode) (fs : List Field) (s : State) : (queueReply g k fs s).plan = s.plan := rfl
@[simp] theorem queueReply_results (g : Byte) (k : ReplyCode) (fs : List Field) (s : State) : (queueReply g k fs s).results = s.results := rfl
@[simp] theorem queueReply_markerTime (g : Byte) (k : ReplyCode) (fs : List Field) (s : State) : (queueReply g k fs s).markerTime = s.markerTime := rfl
@[simp] theorem queueReply_markers (g : Byte) (k : ReplyCode) (fs : List Field) (s : State) : (queueReply g k fs s).markers = s.markers := rfl
@[simp] theorem queueReply_command (g : Byte) (k : ReplyCode) (fs : List Field) (s : State) :
    (queueReply g k fs s).command = { s.command with replies := s.command.replies ++ [⟨g, k, fs⟩] } := rfl
@[simp] theorem queueReply_choices (g : Byte) (k : ReplyCode) (fs : List Field) (s : State) : (queueReply g k fs s).choices = s.choices := rfl

@[simp] theorem discardQueue_pending (f : Stamp) (s : State) : (discardQueue f s).pending = s.pending := rfl
@[simp] theorem discardQueue_held (f : Stamp) (s : State) : (discardQueue f s).held = s.held := rfl
@[simp] theorem discardQueue_link (f : Stamp) (s : State) : (discardQueue f s).link = s.link := rfl
@[simp] theorem discardQueue_node (f : Stamp) (s : State) : (discardQueue f s).node = s.node := rfl
@[simp] theorem discardQueue_timebase (f : Stamp) (s : State) : (discardQueue f s).timebase = s.timebase := rfl
@[simp] theorem discardQueue_map (f : Stamp) (s : State) : (discardQueue f s).map = s.map := rfl
@[simp] theorem discardQueue_channels (f : Stamp) (s : State) : (discardQueue f s).channels = s.channels := rfl
@[simp] theorem discardQueue_tables (f : Stamp) (s : State) : (discardQueue f s).tables = s.tables := rfl
@[simp] theorem discardQueue_cal (f : Stamp) (s : State) : (discardQueue f s).cal = s.cal := rfl
@[simp] theorem discardQueue_queue (f : Stamp) (s : State) :
    (discardQueue f s).queue = { entries := [], mark := f } := rfl
@[simp] theorem discardQueue_slots (f : Stamp) (s : State) : (discardQueue f s).slots = s.slots := rfl
@[simp] theorem discardQueue_plan (f : Stamp) (s : State) : (discardQueue f s).plan = s.plan := rfl
@[simp] theorem discardQueue_results (f : Stamp) (s : State) : (discardQueue f s).results = s.results := rfl
@[simp] theorem discardQueue_markerTime (f : Stamp) (s : State) : (discardQueue f s).markerTime = s.markerTime := rfl
@[simp] theorem discardQueue_markers (f : Stamp) (s : State) : (discardQueue f s).markers = s.markers := rfl
@[simp] theorem discardQueue_command (f : Stamp) (s : State) : (discardQueue f s).command = s.command := rfl
@[simp] theorem discardQueue_choices (f : Stamp) (s : State) : (discardQueue f s).choices = s.choices := rfl

@[simp] theorem refreshSlotMarkers_pending (i : Fin 8) (s : State) : (refreshSlotMarkers i s).pending = s.pending := rfl
@[simp] theorem refreshSlotMarkers_held (i : Fin 8) (s : State) : (refreshSlotMarkers i s).held = s.held := rfl
@[simp] theorem refreshSlotMarkers_link (i : Fin 8) (s : State) : (refreshSlotMarkers i s).link = s.link := rfl
@[simp] theorem refreshSlotMarkers_node (i : Fin 8) (s : State) : (refreshSlotMarkers i s).node = s.node := rfl
@[simp] theorem refreshSlotMarkers_timebase (i : Fin 8) (s : State) : (refreshSlotMarkers i s).timebase = s.timebase := rfl
@[simp] theorem refreshSlotMarkers_map (i : Fin 8) (s : State) : (refreshSlotMarkers i s).map = s.map := rfl
@[simp] theorem refreshSlotMarkers_channels (i : Fin 8) (s : State) : (refreshSlotMarkers i s).channels = s.channels := rfl
@[simp] theorem refreshSlotMarkers_tables (i : Fin 8) (s : State) : (refreshSlotMarkers i s).tables = s.tables := rfl
@[simp] theorem refreshSlotMarkers_cal (i : Fin 8) (s : State) : (refreshSlotMarkers i s).cal = s.cal := rfl
@[simp] theorem refreshSlotMarkers_queue (i : Fin 8) (s : State) : (refreshSlotMarkers i s).queue = s.queue := rfl
@[simp] theorem refreshSlotMarkers_slots (i : Fin 8) (s : State) : (refreshSlotMarkers i s).slots = s.slots := rfl
@[simp] theorem refreshSlotMarkers_plan (i : Fin 8) (s : State) : (refreshSlotMarkers i s).plan = s.plan := rfl
@[simp] theorem refreshSlotMarkers_results (i : Fin 8) (s : State) : (refreshSlotMarkers i s).results = s.results := rfl
@[simp] theorem refreshSlotMarkers_markerTime (i : Fin 8) (s : State) : (refreshSlotMarkers i s).markerTime = s.markerTime := rfl
@[simp] theorem refreshSlotMarkers_command (i : Fin 8) (s : State) : (refreshSlotMarkers i s).command = s.command := rfl
@[simp] theorem refreshSlotMarkers_choices (i : Fin 8) (s : State) : (refreshSlotMarkers i s).choices = s.choices := rfl

@[simp] theorem refreshTimebaseMarkers_pending (s : State) : (refreshTimebaseMarkers s).pending = s.pending := rfl
@[simp] theorem refreshTimebaseMarkers_held (s : State) : (refreshTimebaseMarkers s).held = s.held := rfl
@[simp] theorem refreshTimebaseMarkers_link (s : State) : (refreshTimebaseMarkers s).link = s.link := rfl
@[simp] theorem refreshTimebaseMarkers_node (s : State) : (refreshTimebaseMarkers s).node = s.node := rfl
@[simp] theorem refreshTimebaseMarkers_timebase (s : State) : (refreshTimebaseMarkers s).timebase = s.timebase := rfl
@[simp] theorem refreshTimebaseMarkers_map (s : State) : (refreshTimebaseMarkers s).map = s.map := rfl
@[simp] theorem refreshTimebaseMarkers_channels (s : State) : (refreshTimebaseMarkers s).channels = s.channels := rfl
@[simp] theorem refreshTimebaseMarkers_tables (s : State) : (refreshTimebaseMarkers s).tables = s.tables := rfl
@[simp] theorem refreshTimebaseMarkers_cal (s : State) : (refreshTimebaseMarkers s).cal = s.cal := rfl
@[simp] theorem refreshTimebaseMarkers_queue (s : State) : (refreshTimebaseMarkers s).queue = s.queue := rfl
@[simp] theorem refreshTimebaseMarkers_slots (s : State) : (refreshTimebaseMarkers s).slots = s.slots := rfl
@[simp] theorem refreshTimebaseMarkers_plan (s : State) : (refreshTimebaseMarkers s).plan = s.plan := rfl
@[simp] theorem refreshTimebaseMarkers_results (s : State) : (refreshTimebaseMarkers s).results = s.results := rfl
@[simp] theorem refreshTimebaseMarkers_markerTime (s : State) : (refreshTimebaseMarkers s).markerTime = s.markerTime := rfl
@[simp] theorem refreshTimebaseMarkers_command (s : State) : (refreshTimebaseMarkers s).command = s.command := rfl
@[simp] theorem refreshTimebaseMarkers_choices (s : State) : (refreshTimebaseMarkers s).choices = s.choices := rfl

@[simp] theorem toggleDividers_pending (c : Fin 16) (s : State) : (toggleDividers c s).pending = s.pending := rfl
@[simp] theorem toggleDividers_held (c : Fin 16) (s : State) : (toggleDividers c s).held = s.held := rfl
@[simp] theorem toggleDividers_link (c : Fin 16) (s : State) : (toggleDividers c s).link = s.link := rfl
@[simp] theorem toggleDividers_node (c : Fin 16) (s : State) : (toggleDividers c s).node = s.node := rfl
@[simp] theorem toggleDividers_timebase (c : Fin 16) (s : State) : (toggleDividers c s).timebase = s.timebase := rfl
@[simp] theorem toggleDividers_map (c : Fin 16) (s : State) : (toggleDividers c s).map = s.map := rfl
@[simp] theorem toggleDividers_channels (c : Fin 16) (s : State) : (toggleDividers c s).channels = s.channels := rfl
@[simp] theorem toggleDividers_tables (c : Fin 16) (s : State) : (toggleDividers c s).tables = s.tables := rfl
@[simp] theorem toggleDividers_cal (c : Fin 16) (s : State) : (toggleDividers c s).cal = s.cal := rfl
@[simp] theorem toggleDividers_queue (c : Fin 16) (s : State) : (toggleDividers c s).queue = s.queue := rfl
@[simp] theorem toggleDividers_slots (c : Fin 16) (s : State) : (toggleDividers c s).slots = s.slots := rfl
@[simp] theorem toggleDividers_plan (c : Fin 16) (s : State) : (toggleDividers c s).plan = s.plan := rfl
@[simp] theorem toggleDividers_results (c : Fin 16) (s : State) : (toggleDividers c s).results = s.results := rfl
@[simp] theorem toggleDividers_markerTime (c : Fin 16) (s : State) : (toggleDividers c s).markerTime = s.markerTime := rfl
@[simp] theorem toggleDividers_command (c : Fin 16) (s : State) : (toggleDividers c s).command = s.command := rfl
@[simp] theorem toggleDividers_choices (c : Fin 16) (s : State) : (toggleDividers c s).choices = s.choices := rfl

@[simp] theorem signalDone_pending (i : Fin 8) (s : State) : (signalDone i s).pending = s.pending := rfl
@[simp] theorem signalDone_held (i : Fin 8) (s : State) : (signalDone i s).held = s.held := rfl
@[simp] theorem signalDone_link (i : Fin 8) (s : State) : (signalDone i s).link = s.link := rfl
@[simp] theorem signalDone_node (i : Fin 8) (s : State) : (signalDone i s).node = s.node := rfl
@[simp] theorem signalDone_timebase (i : Fin 8) (s : State) : (signalDone i s).timebase = s.timebase := rfl
@[simp] theorem signalDone_map (i : Fin 8) (s : State) : (signalDone i s).map = s.map := rfl
@[simp] theorem signalDone_channels (i : Fin 8) (s : State) : (signalDone i s).channels = s.channels := rfl
@[simp] theorem signalDone_tables (i : Fin 8) (s : State) : (signalDone i s).tables = s.tables := rfl
@[simp] theorem signalDone_cal (i : Fin 8) (s : State) : (signalDone i s).cal = s.cal := rfl
@[simp] theorem signalDone_queue (i : Fin 8) (s : State) : (signalDone i s).queue = s.queue := rfl
@[simp] theorem signalDone_slots (i : Fin 8) (s : State) : (signalDone i s).slots = s.slots := rfl
@[simp] theorem signalDone_plan (i : Fin 8) (s : State) : (signalDone i s).plan = s.plan := rfl
@[simp] theorem signalDone_results (i : Fin 8) (s : State) : (signalDone i s).results = s.results := rfl
@[simp] theorem signalDone_markerTime (i : Fin 8) (s : State) : (signalDone i s).markerTime = s.markerTime := rfl
@[simp] theorem signalDone_command (i : Fin 8) (s : State) : (signalDone i s).command = s.command := rfl
@[simp] theorem signalDone_choices (i : Fin 8) (s : State) : (signalDone i s).choices = s.choices := rfl

@[simp] theorem showPins_pending (s : State) : (showPins s).pending = s.pending := rfl
@[simp] theorem showPins_held (s : State) : (showPins s).held = s.held := rfl
@[simp] theorem showPins_link (s : State) : (showPins s).link = s.link := rfl
@[simp] theorem showPins_node (s : State) : (showPins s).node = s.node := rfl
@[simp] theorem showPins_timebase (s : State) : (showPins s).timebase = s.timebase := rfl
@[simp] theorem showPins_map (s : State) : (showPins s).map = s.map := rfl
@[simp] theorem showPins_channels (s : State) : (showPins s).channels = s.channels := rfl
@[simp] theorem showPins_tables (s : State) : (showPins s).tables = s.tables := rfl
@[simp] theorem showPins_cal (s : State) : (showPins s).cal = s.cal := rfl
@[simp] theorem showPins_queue (s : State) : (showPins s).queue = s.queue := rfl
@[simp] theorem showPins_slots (s : State) : (showPins s).slots = s.slots := rfl
@[simp] theorem showPins_plan (s : State) : (showPins s).plan = s.plan := rfl
@[simp] theorem showPins_results (s : State) : (showPins s).results = s.results := rfl
@[simp] theorem showPins_markerTime (s : State) : (showPins s).markerTime = s.markerTime := rfl
@[simp] theorem showPins_command (s : State) : (showPins s).command = s.command := rfl
@[simp] theorem showPins_choices (s : State) : (showPins s).choices = s.choices := rfl

@[simp] theorem raise_pending (k : AttnKind) (d : List Field) (s : State) : (raise k d s).pending = s.pending := rfl
@[simp] theorem raise_held (k : AttnKind) (d : List Field) (s : State) : (raise k d s).held = s.held := rfl
@[simp] theorem raise_link (k : AttnKind) (d : List Field) (s : State) : (raise k d s).link = s.link := rfl
@[simp] theorem raise_node (k : AttnKind) (d : List Field) (s : State) : (raise k d s).node = s.node := rfl
@[simp] theorem raise_timebase (k : AttnKind) (d : List Field) (s : State) : (raise k d s).timebase = s.timebase := rfl
@[simp] theorem raise_map (k : AttnKind) (d : List Field) (s : State) : (raise k d s).map = s.map := rfl
@[simp] theorem raise_channels (k : AttnKind) (d : List Field) (s : State) : (raise k d s).channels = s.channels := rfl
@[simp] theorem raise_tables (k : AttnKind) (d : List Field) (s : State) : (raise k d s).tables = s.tables := rfl
@[simp] theorem raise_cal (k : AttnKind) (d : List Field) (s : State) : (raise k d s).cal = s.cal := rfl
@[simp] theorem raise_queue (k : AttnKind) (d : List Field) (s : State) : (raise k d s).queue = s.queue := rfl
@[simp] theorem raise_slots (k : AttnKind) (d : List Field) (s : State) : (raise k d s).slots = s.slots := rfl
@[simp] theorem raise_plan (k : AttnKind) (d : List Field) (s : State) : (raise k d s).plan = s.plan := rfl
@[simp] theorem raise_results (k : AttnKind) (d : List Field) (s : State) : (raise k d s).results = s.results := rfl
@[simp] theorem raise_markerTime (k : AttnKind) (d : List Field) (s : State) : (raise k d s).markerTime = s.markerTime := rfl
@[simp] theorem raise_markers (k : AttnKind) (d : List Field) (s : State) : (raise k d s).markers = s.markers := rfl
@[simp] theorem raise_choices (k : AttnKind) (d : List Field) (s : State) : (raise k d s).choices = s.choices := rfl

@[simp] theorem recordFlag_pending (w : Slot → Bool) (f : RunFlags → RunFlags) (s : State) : (recordFlag w f s).pending = s.pending := rfl
@[simp] theorem recordFlag_held (w : Slot → Bool) (f : RunFlags → RunFlags) (s : State) : (recordFlag w f s).held = s.held := rfl
@[simp] theorem recordFlag_link (w : Slot → Bool) (f : RunFlags → RunFlags) (s : State) : (recordFlag w f s).link = s.link := rfl
@[simp] theorem recordFlag_node (w : Slot → Bool) (f : RunFlags → RunFlags) (s : State) : (recordFlag w f s).node = s.node := rfl
@[simp] theorem recordFlag_timebase (w : Slot → Bool) (f : RunFlags → RunFlags) (s : State) : (recordFlag w f s).timebase = s.timebase := rfl
@[simp] theorem recordFlag_map (w : Slot → Bool) (f : RunFlags → RunFlags) (s : State) : (recordFlag w f s).map = s.map := rfl
@[simp] theorem recordFlag_channels (w : Slot → Bool) (f : RunFlags → RunFlags) (s : State) : (recordFlag w f s).channels = s.channels := rfl
@[simp] theorem recordFlag_tables (w : Slot → Bool) (f : RunFlags → RunFlags) (s : State) : (recordFlag w f s).tables = s.tables := rfl
@[simp] theorem recordFlag_cal (w : Slot → Bool) (f : RunFlags → RunFlags) (s : State) : (recordFlag w f s).cal = s.cal := rfl
@[simp] theorem recordFlag_queue (w : Slot → Bool) (f : RunFlags → RunFlags) (s : State) : (recordFlag w f s).queue = s.queue := rfl
@[simp] theorem recordFlag_plan (w : Slot → Bool) (f : RunFlags → RunFlags) (s : State) : (recordFlag w f s).plan = s.plan := rfl
@[simp] theorem recordFlag_results (w : Slot → Bool) (f : RunFlags → RunFlags) (s : State) : (recordFlag w f s).results = s.results := rfl
@[simp] theorem recordFlag_markerTime (w : Slot → Bool) (f : RunFlags → RunFlags) (s : State) : (recordFlag w f s).markerTime = s.markerTime := rfl
@[simp] theorem recordFlag_markers (w : Slot → Bool) (f : RunFlags → RunFlags) (s : State) : (recordFlag w f s).markers = s.markers := rfl
@[simp] theorem recordFlag_command (w : Slot → Bool) (f : RunFlags → RunFlags) (s : State) : (recordFlag w f s).command = s.command := rfl
@[simp] theorem recordFlag_choices (w : Slot → Bool) (f : RunFlags → RunFlags) (s : State) : (recordFlag w f s).choices = s.choices := rfl

end Sys2Proof.Machine
end

