-- ==== Sys2Proof/Laws/Ops.lean ====
section
/-!
SUPPORT. What each shared operation can do: the raise of an attention, the arrival of a cell, and the
taking of a command.
-/

namespace Sys2Proof.Machine

/-! ## Attentions -/

@[simp] theorem raise_replies (k : AttnKind) (d : List Field) (s : State) :
    (raise k d s).command.replies = s.command.replies := rfl

@[simp] theorem raise_repliesSent (k : AttnKind) (d : List Field) (s : State) :
    (raise k d s).command.repliesSent = s.command.repliesSent := rfl

@[simp] theorem raise_mute (k : AttnKind) (d : List Field) (s : State) :
    (raise k d s).command.mute = s.command.mute := rfl

@[simp] theorem raise_load (k : AttnKind) (d : List Field) (s : State) :
    (raise k d s).command.load = s.command.load := rfl

theorem raise_attns (k : AttnKind) (d : List Field) (s : State) :
    (raise k d s).command.attns =
      s.command.attns.set k.code ((s.command.attns.get k.code).raise d) := rfl

theorem raise_notices (k : AttnKind) (d : List Field) (s : State) :
    (raise k d s).command.notices =
      if (s.command.attns.get k.code).joins then joinNotices k s.command.notices
      else s.command.notices := rfl

/-- With its enable off, a raise does nothing (R169). -/
theorem raise_of_disabled {k : AttnKind} {s : State} (d : List Field)
    (h : (s.command.attns.get k.code).enable = false) : raise k d s = s := by
  simp [raise, Attn.raise, Attn.joins, h]

theorem AttnKind.code_injective : Function.Injective AttnKind.code := by
  intro a b h
  cases a <;> cases b <;> first | rfl | (exact absurd h (by decide))

/-! ## The width rule -/

/-- What a comparison of the wanted level with the pin can do (R147): no transition, one now, or one that
waits. -/
theorem Marker.act_cases (now : Nat) (m : Marker) :
    (m.wanted = m.pin ∧ m.act now = { m with resetHold := none }) ∨
    (m.wanted ≠ m.pin ∧ m.holdUntil ≤ now ∧
      m.act now = { m with pin := m.wanted, lastTransition := now, resetHold := none }) ∨
    (m.wanted ≠ m.pin ∧ now < m.holdUntil ∧ m.act now = m) := by
  unfold Marker.act
  split
  · next h => exact .inl ⟨h, rfl⟩
  · next h =>
    split
    · next k => exact .inr (.inl ⟨h, k, rfl⟩)
    · next k => exact .inr (.inr ⟨h, Nat.lt_of_not_le k, rfl⟩)

/-- The width rule changes the pin, the last transition and a node reset's waiting transition alone. -/
theorem Marker.act_frame (now : Nat) (m : Marker) :
    m.act now =
      { m with
        pin := (m.act now).pin, lastTransition := (m.act now).lastTransition
        resetHold := (m.act now).resetHold } := by
  rcases m.act_cases now with ⟨_, h⟩ | ⟨_, _, h⟩ | ⟨_, _, h⟩ <;> rw [h]

/-- A node reset's own transition waits only where it waited before and the pin has kept its level. -/
theorem Marker.act_resetHold {now : Nat} {m : Marker} (h : (m.act now).resetHold ≠ none) :
    m.act now = m ∧ m.wanted ≠ m.pin := by
  rcases m.act_cases now with ⟨_, k⟩ | ⟨_, _, k⟩ | ⟨w, _, k⟩
  · exact absurd (by rw [k]) h
  · exact absurd (by rw [k]) h
  · exact ⟨k, w⟩

/-! ## The arrival of a cell -/

theorem receive_held {f : State → State} {s : State} (h : s.held = true) : receive f s = s := by
  simp [receive, h]

theorem receive_hunt {f : State → State} {s : State} (h : s.link.align = .hunt) :
    receive f s = s := by
  unfold receive; split <;> simp_all

theorem receive_confirming {f : State → State} {s : State} (h : s.held = false)
    (ha : s.link.align = .confirming) : receive f s = toHunt s := by
  simp [receive, h, ha]

theorem receive_locked {f : State → State} {s : State} (h : Receiving s) :
    receive f s = f { s with link := { s.link with badRun := 0 } } := by
  simp [receive, h.1, h.2]

/-- A cell's arrival leaves the state, or returns the receiver to HUNT, or hands the cell on. -/
theorem receive_cases (f : State → State) (s : State) :
    receive f s = s ∨ (s.held = false ∧ receive f s = toHunt s) ∨
      (Receiving s ∧ receive f s = f { s with link := { s.link with badRun := 0 } }) := by
  by_cases hh : s.held = true
  · exact .inl (receive_held hh)
  · have hf : s.held = false := by simpa using hh
    rcases ha : s.link.align with _ | _ | _
    · exact .inl (receive_hunt ha)
    · exact .inr (.inl ⟨hf, receive_confirming hf ha⟩)
    · exact .inr (.inr ⟨⟨hf, ha⟩, receive_locked ⟨hf, ha⟩⟩)

/-! ## The taking of a command -/

theorem selects_addressed {s : State} {c : Cell} (h : Addresses s c) :
    selects s.node (cellNode c) = .addressed := by
  unfold selects
  rcases h with ⟨h0, hu⟩ | ⟨h1, h2, ha⟩
  · simp [h0, hu]
  · have h15 : cellNode c ≠ 15 := by omega
    have h0 : cellNode c ≠ 0 := by omega
    rw [if_neg h15, if_neg h0, if_pos ha]

/-- A load that is not OPEN is abandoned by no command (R176). -/
theorem abandonLoad_of_closed {s : State} (code : Nat) (h : s.command.load.phase ≠ .opened) :
    abandonLoad code s = s := by
  simp [abandonLoad, h]

/-- The commands of the load set, STATUS and NODE-RESET abandon no load (R176). -/
theorem abandonLoad_of_keeps {code : Nat} (s : State) (h : keepsLoad code = true) :
    abandonLoad code s = s := by
  simp [abandonLoad, h]

/-- A command that the part takes is carried out on the state its consumed cell leaves, and its reply
queued (R165, R166). -/
theorem takeCommand_takes {code : Nat} {c : Cell} {judge : Bool → State → Answer} {s : State}
    (h : Takes s c) :
    takeCommand code c judge s = carryOut code (cellTag c) true (judge false) (consumed s) := by
  have hlen : ¬ Config.replyEntries ≤ s.command.replies.length := by
    have := h.2.2
    simp only [Config.replyEntries]; omega
  rw [takeCommand, receive_locked h.1]
  simp only [handCommand, selects_addressed h.2.1, hlen, if_false]
  rfl

/-- The same where no load is OPEN. -/
theorem takeCommand_quiet {code : Nat} {c : Cell} {judge : Bool → State → Answer} {s : State}
    (h : TakesQuietly s c) :
    takeCommand code c judge s =
      replied c (judge false (consumed s)).code (judge false (consumed s)).fields
        (judge false (consumed s)).state := by
  rw [takeCommand_takes h.1, carryOut, abandonLoad_of_closed code (by exact h.2)]
  rfl

/-- The same for a command that abandons no load. -/
theorem takeCommand_keeps {code : Nat} {c : Cell} {judge : Bool → State → Answer} {s : State}
    (h : Takes s c) (hk : keepsLoad code = true) :
    takeCommand code c judge s =
      replied c (judge false (consumed s)).code (judge false (consumed s)).fields
        (judge false (consumed s)).state := by
  rw [takeCommand_takes h, carryOut, abandonLoad_of_keeps _ hk]
  rfl

/-- All that a COMMAND cell can do (R156, R158, R165, R166): nothing, a return to HUNT, a relay, a
discard with REPLY-LOST, or the command carried out, its reply queued where it was addressed. -/
theorem takeCommand_cases (code : Nat) (c : Cell) (judge : Bool → State → Answer) (s : State) :
    takeCommand code c judge s = s ∨
    (s.held = false ∧ takeCommand code c judge s = toHunt s) ∨
    (Receiving s ∧ takeCommand code c judge s = relayed c s) ∨
    (Receiving s ∧ takeCommand code c judge s =
      raise .replyLost [num 8 (cellTag c).toNat, num 6 code] (consumed s)) ∨
    (Receiving s ∧ takeCommand code c judge s =
      carryOut code (cellTag c) false (judge true) (relayed c s)) ∨
    (Receiving s ∧ s.command.replies.length < 8 ∧ takeCommand code c judge s =
      carryOut code (cellTag c) true (judge false) (consumed s)) := by
  unfold takeCommand
  rcases receive_cases (handCommand code c judge) s with h | ⟨hh, h⟩ | ⟨hr, h⟩
  · exact .inl h
  · exact .inr (.inl ⟨hh, h⟩)
  · refine .inr (.inr ?_)
    rw [h, handCommand]
    split
    · exact .inl ⟨hr, rfl⟩
    · exact .inr (.inr (.inl ⟨hr, rfl⟩))
    · split
      · exact .inr (.inl ⟨hr, rfl⟩)
      · rename_i hlen
        exact .inr (.inr (.inr ⟨hr, by simpa [Config.replyEntries] using hlen, rfl⟩))

/-- The load a command abandons is gone, and nothing else of the state but the LOAD attention has
changed (R176). -/
theorem abandonLoad_cases (code : Nat) (s : State) :
    abandonLoad code s = s ∨
      (s.command.load.phase = .opened ∧ keepsLoad code = false ∧
        abandonLoad code s =
          raise .load
            [num 4 s.command.load.target.code, num 7 s.command.load.words.length, num 6 code]
            (emptyLoad s)) := by
  unfold abandonLoad
  dsimp only
  split
  · rename_i h
    simp only [Bool.and_eq_true, decide_eq_true_eq, Bool.not_eq_true'] at h
    exact .inr ⟨h.1, h.2, rfl⟩
  · exact .inl rfl

/-! ## Free choices -/

theorem getD_mem {α : Type} (l : List α) (n : Nat) {d : α} (hd : d ∈ l) : l.getD n d ∈ l := by
  rw [List.getD_eq_getElem?_getD]
  rcases h : l[n]? with _ | a
  · simpa using hd
  · simpa using List.mem_of_getElem? h

/-- What is chosen is one of those that were to be chosen from, and the others are of them too. -/
theorem choose_mem {α : Type} {n : Nat} {l others : List α} {a : α} {m : Nat}
    (h : choose n l = some (a, others, m)) : a ∈ l ∧ ∀ b ∈ others, b ∈ l := by
  unfold choose at h
  split at h
  · cases h
  · cases h; simp
  · cases h
    exact ⟨getD_mem _ _ (by simp), fun b hb => List.mem_of_mem_eraseIdx hb⟩

end Sys2Proof.Machine
end

