-- ==== Sys2Proof/Laws/Slots.lean ====
section
/-!
SUPPORT. What the slot machine can do to a slot's state: where a run goes on, the slot is not IDLE, and
where it ends, the run context is empty but for the gate index (R91, R126).
-/

namespace Sys2Proof.Machine

/-! ## The state of a slot after small updates -/

@[simp] theorem Slot.withRun_state (x : Slot) (f : Run → Run) : (x.withRun f).state = x.state := rfl

@[simp] theorem Slot.withFlags_state (x : Slot) (f : RunFlags → RunFlags) :
    (x.withFlags f).state = x.state := rfl

@[simp] theorem Slot.withRun_config (x : Slot) (f : Run → Run) : (x.withRun f).config = x.config :=
  rfl

@[simp] theorem Slot.withFlags_config (x : Slot) (f : RunFlags → RunFlags) :
    (x.withFlags f).config = x.config := rfl

@[simp] theorem Slot.awaitGate_state (x : Slot) : x.awaitGate.state = .armed := rfl

@[simp] theorem Slot.finish_state (x : Slot) : x.finish.state = .idle := rfl

@[simp] theorem Slot.beginBatch_state (x : Slot) : x.beginBatch.state = .seekA := rfl

@[simp] theorem Slot.beginRun_state (x : Slot) (p : Nat) (l : Level) :
    (x.beginRun p l).state = .armed := rfl

@[simp] theorem Slot.emit_state (i : Fin 8) (v : Bool) (b : RecordBody) (x : Slot) :
    (x.emit i v b).1.state = x.state := rfl

@[simp] theorem Slot.emit_config (i : Fin 8) (v : Bool) (b : RecordBody) (x : Slot) :
    (x.emit i v b).1.config = x.config := rfl

@[simp] theorem Slot.passOver_state (x : Slot) : x.passOver.state = x.state := rfl

@[simp] theorem Slot.formPending_state (t : Stamp) (x : Slot) :
    (x.formPending t).state = x.state := by
  unfold Slot.formPending; split <;> rfl

theorem Slot.openGate_runs (t : Stamp) (close : Option Stamp) (x : Slot) :
    (x.openGate t close).state ≠ .idle := by
  unfold Slot.openGate
  dsimp only
  split <;> simp

theorem Slot.openTimed_runs (t : Stamp) (x : Slot) : (x.openTimed t).state ≠ .idle :=
  Slot.openGate_runs _ _ _

theorem Slot.startStep_runs (plan : Bank PlanStep 64) (n : Fin 64) (t : Stamp) (x : Slot) :
    (x.startStep plan n t).state ≠ .idle := by
  unfold Slot.startStep
  dsimp only
  split
  · split
    · simp_all
    · exact Slot.openGate_runs _ _ _
  · split
    · simp_all
    · simp

/-! ## Soundness -/

theorem SlotSound.of_runs {x : Slot} (h : x.state ≠ .idle) : SlotSound x := fun e => absurd e h

theorem Slot.finish_sound (x : Slot) : SlotSound x.finish := fun _ => rfl

theorem Slot.reset_sound : SlotSound Slot.reset := fun _ => rfl

theorem Slot.afterGate_sound (t : Stamp) (x : Slot) : SlotSound (x.afterGate t) := by
  unfold Slot.afterGate
  split
  · split
    · exact .of_runs (Slot.openTimed_runs _ _)
    · exact .of_runs (by simp)
  · exact x.finish_sound

theorem Slot.closeGate_sound (i : Fin 8) (t : Stamp) {x : Slot} (h : SlotSound x) :
    SlotSound (x.closeGate i t).1 := by
  unfold Slot.closeGate
  split <;> first
    | exact h
    | exact Slot.afterGate_sound _ _
    | exact .of_runs (by simp)

theorem Slot.closeStep_sound (i : Fin 8) (t : Stamp) {x : Slot} (h : SlotSound x) :
    SlotSound (x.closeStep i t).1 := by
  unfold Slot.closeStep
  split
  · rename_i hc
    refine .of_runs ?_
    dsimp only
    split <;> simp [hc]
  · exact Slot.closeGate_sound i t h

theorem Slot.followStep_sound (plan : Bank PlanStep 64) (t : Stamp) {y : Slot} (h : SlotSound y) :
    SlotSound (y.followStep plan t) := by
  unfold Slot.followStep
  split
  · exact h
  · split
    · split
      · exact .of_runs (Slot.startStep_runs _ _ _ _)
      · exact .of_runs (Slot.startStep_runs _ _ _ _)
      · dsimp only
        split
        · rename_i hc
          exact .of_runs (by rw [hc]; simp)
        · exact Slot.finish_sound _
    · exact Slot.finish_sound _

theorem Slot.endStep_sound (i : Fin 8) (plan : Bank PlanStep 64) (t : Stamp) {x : Slot}
    (h : SlotSound x) : SlotSound (x.endStep i plan t).1 :=
  Slot.followStep_sound plan t (Slot.closeStep_sound i t h)

theorem Slot.takeArmPoint_runs (plan : Bank PlanStep 64) (t : Stamp) {x : Slot}
    (h : x.state ≠ .idle) : (x.takeArmPoint plan t).state ≠ .idle := by
  unfold Slot.takeArmPoint
  dsimp only
  split
  · exact Slot.openTimed_runs _ _
  · exact Slot.openGate_runs _ _ _
  · exact Slot.startStep_runs _ _ _ _
  · simpa using h

theorem Slot.reachArmTime_runs (plan : Bank PlanStep 64) (t : Stamp) {x : Slot}
    (h : x.state ≠ .idle) : (x.reachArmTime plan t).state ≠ .idle := by
  unfold Slot.reachArmTime
  split
  · simpa using h
  · exact Slot.takeArmPoint_runs plan t h

theorem Slot.afterExpiry_sound (t : Stamp) (p : Option PendingGate) (y : Slot) :
    SlotSound (y.afterExpiry t p) := by
  unfold Slot.afterExpiry
  split
  · dsimp only
    split
    · exact .of_runs (Slot.openTimed_runs _ _)
    · exact .of_runs (by rw [Slot.withFlags_state]; exact Slot.openGate_runs _ _ _)
  · exact Slot.afterGate_sound _ _

theorem Slot.expireClose_sound (i : Fin 8) (t : Stamp) (x : Slot) :
    SlotSound (x.expireClose i t).1 :=
  Slot.afterExpiry_sound _ _ _

theorem Slot.takeBoundary_sound (i : Fin 8) (plan : Bank PlanStep 64) (k : Boundary) (t : Stamp)
    {x : Slot} (h : x.state ≠ .idle) : SlotSound (x.takeBoundary i plan k t).1 := by
  unfold Slot.takeBoundary
  split
  · exact .of_runs (Slot.reachArmTime_runs plan t h)
  · split
    · exact .of_runs (by simpa using h)
    · exact Slot.closeGate_sound i t (.of_runs h)
  · exact Slot.expireClose_sound _ _ _
  · exact Slot.endStep_sound i plan t (.of_runs h)

/-- A slot with a boundary due is not IDLE (R92). -/
theorem Slot.runs_of_due {w : Stamp} {x : Slot} {b : Boundary × Stamp} (h : b ∈ x.due w) :
    x.state ≠ .idle := by
  intro e
  have : x.reached w = [] := by simp [Slot.reached, Slot.boundaries, e]
  simp [Slot.due, this, earliestOf] at h

theorem Slot.matchArm_sound (plan : Bank PlanStep 64) (e : Edge) {x : Slot} (h : SlotSound x) :
    SlotSound (x.matchArm plan e) := by
  unfold Slot.matchArm
  split
  · rename_i hs _
    have hr : x.state ≠ .idle := by simp [hs]
    split
    · dsimp only
      split
      · exact .of_runs (Slot.takeArmPoint_runs plan e.stamp hr)
      · exact .of_runs (Slot.takeArmPoint_runs plan e.stamp hr)
    · exact h
  · exact h

@[simp] theorem Slot.countEdge_state (e : Edge) (x : Slot) : (x.countEdge e).state = x.state := rfl

theorem Slot.afterClosing_sound (e : Edge) (p : Option PendingGate) (y : Slot) :
    SlotSound (y.afterClosing e p) := by
  unfold Slot.afterClosing
  split
  · exact .of_runs (fun h => nomatch h)
  · split
    · exact .of_runs (by simp)
    · exact Slot.finish_sound _

theorem Slot.closingEdge_sound (i : Fin 8) (e : Edge) (x : Slot) :
    SlotSound (x.closingEdge i e).1 :=
  Slot.afterClosing_sound _ _ _

theorem Slot.matchGate_sound (i : Fin 8) (e : Edge) {x : Slot} (h : SlotSound x) :
    SlotSound (x.matchGate i e).1 := by
  have close : x.state ≠ .idle →
      SlotSound ((x.withFlags fun f => f.use e.marks).closeGate i e.stamp).1 :=
    fun hx => Slot.closeGate_sound i e.stamp (.of_runs hx)
  unfold Slot.matchGate
  split
  · split
    · by_cases hx : x.state = .idle
      · simpa [hx] using h
      · split <;> (try split) <;> first
          | exact h
          | exact close hx
          | exact .of_runs (by simp_all [Slot.openGate_runs])
    · exact h
  · exact h

theorem Slot.rateEdge_sound (i : Fin 8) (e : Edge) {x : Slot} (h : SlotSound x) :
    SlotSound (x.rateEdge i e).1 := by
  unfold Slot.rateEdge
  split
  · split
    · exact .of_runs (by simp)
    · exact .of_runs (by simp_all)
    · exact Slot.closingEdge_sound i e x
    · exact h
  · exact h

theorem Slot.nextBatch_runs (e : Edge) (x : Slot) : (x.nextBatch e).state ≠ .idle := by
  unfold Slot.nextBatch
  dsimp only
  split
  · simp
  · split
    · exact Slot.openTimed_runs _ _
    · simp

@[simp] theorem Slot.recordSample_state (a : PendingA) (e : Edge) (x : Slot) :
    (x.recordSample a e).state = x.state := rfl

theorem Slot.afterBatch_sound (e : Edge) (y : Slot) : SlotSound (y.afterBatch e) := by
  unfold Slot.afterBatch
  split
  · exact .of_runs (Slot.nextBatch_runs _ _)
  · exact Slot.finish_sound _

theorem Slot.completeSample_sound (i : Fin 8) (a : PendingA) (e : Edge) {x : Slot}
    (h : x.state ≠ .idle) : SlotSound (x.completeSample i a e).1 := by
  unfold Slot.completeSample
  dsimp only
  split
  · exact Slot.afterBatch_sound _ _
  · split
    · exact .of_runs (by simpa using h)
    · exact .of_runs (by simp)

theorem Slot.intervalEdge_sound (i : Fin 8) (e : Edge) {x : Slot} (h : SlotSound x) :
    SlotSound (x.intervalEdge i e).1 := by
  unfold Slot.intervalEdge
  split
  · split
    · exact .of_runs (by simp)
    · exact h
  · rename_i hs _
    have hr : x.state ≠ .idle := by simp [hs]
    split
    · split
      · exact h
      · exact Slot.completeSample_sound i _ e hr
    · split
      · exact .of_runs (by simpa using hr)
      · exact h
  · exact h

theorem Slot.totalEdge_sound (e : Edge) {x : Slot} (h : SlotSound x) :
    SlotSound (x.totalEdge e) := by
  unfold Slot.totalEdge
  split
  · dsimp only
    split
    · exact .of_runs (by simp_all)
    · exact h
  · exact h

theorem Slot.deliver_sound (i : Fin 8) (plan : Bank PlanStep 64) (e : Edge) {x : Slot}
    (h : SlotSound x) : SlotSound (x.deliver i plan e).1 := by
  unfold Slot.deliver
  dsimp only
  have h2 := Slot.matchGate_sound i e (Slot.matchArm_sound plan e h)
  unfold Slot.matchEndpoints
  split
  · exact Slot.rateEdge_sound i e h2
  · exact Slot.intervalEdge_sound i e h2
  · exact Slot.totalEdge_sound e h2

theorem Slot.stop_sound (i : Fin 8) (w : Stamp) {x : Slot} {out : SlotOut}
    (h : x.stop i w = some out) : SlotSound out.1 := by
  unfold Slot.stop at h
  dsimp only at h
  split at h
  · cases h
  · cases h; exact Slot.finish_sound _
  · cases h; exact Slot.finish_sound _
  · cases h; exact .of_runs (by simp_all)
  · split at h
    · cases h; exact Slot.finish_sound _
    · cases h; exact .of_runs (by simp_all)
  all_goals (cases h; exact Slot.finish_sound _)

theorem Slot.epochEnd_sound (i : Fin 8) {x : Slot} (h : SlotSound x) :
    SlotSound (x.epochEnd i).1 := by
  unfold Slot.epochEnd
  split
  · exact h
  · exact Slot.finish_sound _

end Sys2Proof.Machine
end

