-- ==== Sys2Proof/Laws/Moves.lean ====
section
/-!
SUPPORT. What a release, a boundary or a result can do to the state. `Moves s t` says that `t` is reached
from `s` by raises, offers to the Result Queue, changes of slots, markers and the Ordering Queue, and
free choices. A property of the state that each of these keeps is kept by every operation below.
-/

namespace Sys2Proof.Machine

/-- `t` is reached from `s` by the moves of the measurement part. -/
inductive Moves (s : State) : State → Prop
  | refl : Moves s s
  | raise {t : State} (k : AttnKind) (d : List Field) : Moves s t → Moves s (raise k d t)
  | offer {t : State} (r : QueueRecord) : Moves s t → Moves s (offer r t)
  | slot {t : State} (i : Fin 8) (x : Slot) (h : SlotSound (t.slots.get i) → SlotSound x) :
      Moves s t → Moves s (t.setSlot i x)
  | flag {t : State} (w : Slot → Bool) (f : RunFlags → RunFlags) :
      Moves s t → Moves s (recordFlag w f t)
  | markers {t : State} (ms : Bank Marker 4) : Moves s t → Moves s { t with markers := ms }
  | mark {t : State} (w : Stamp) :
      Moves s t → Moves s { t with queue := { t.queue with mark := w } }
  | entries {t : State} (es : List Edge)
      (h : es.length ≤ 256 ∨ es.length ≤ t.queue.entries.length) :
      Moves s t → Moves s { t with queue := { t.queue with entries := es } }
  | choices {t : State} (n : Nat) : Moves s t → Moves s { t with choices := n }

theorem Moves.trans {a b c : State} (h : Moves a b) (k : Moves b c) : Moves a c := by
  induction k with
  | refl => exact h
  | raise k d _ ih => exact ih.raise k d
  | offer r _ ih => exact ih.offer r
  | slot i x hx _ ih => exact ih.slot i x hx
  | flag w f _ ih => exact ih.flag w f
  | markers ms _ ih => exact ih.markers ms
  | mark w _ ih => exact ih.mark w
  | entries es h _ ih => exact ih.entries es h
  | choices n _ ih => exact ih.choices n

/-- A fold of moves is moves. -/
theorem Moves.foldl {α : Type} {f : State → α → State} (hf : ∀ s a, Moves s (f s a))
    (l : List α) (s : State) : Moves s (l.foldl f s) := by
  induction l generalizing s with
  | nil => exact .refl
  | cons a l ih => exact (hf s a).trans (ih _)

/-- A fold of moves over a list, each move given its member. -/
theorem Moves.foldl_mem {α : Type} {f : State → α → State} (l : List α)
    (hf : ∀ s, ∀ a ∈ l, Moves s (f s a)) (s : State) : Moves s (l.foldl f s) := by
  induction l generalizing s with
  | nil => exact .refl
  | cons a l ih =>
    exact (hf s a (by simp)).trans (ih (fun s b hb => hf s b (by simp [hb])) _)

/-! ## The fields that no move touches -/

/-- What the moves leave as it was. -/
structure SameBase (s t : State) : Prop where
  pending : t.pending = s.pending
  held : t.held = s.held
  link : t.link = s.link
  node : t.node = s.node
  timebase : t.timebase = s.timebase
  map : t.map = s.map
  channels : t.channels = s.channels
  tables : t.tables = s.tables
  cal : t.cal = s.cal
  plan : t.plan = s.plan
  markerTime : t.markerTime = s.markerTime
  replies : t.command.replies = s.command.replies
  repliesSent : t.command.repliesSent = s.command.repliesSent
  mute : t.command.mute = s.command.mute
  load : t.command.load = s.command.load

theorem SameBase.refl (s : State) : SameBase s s :=
  ⟨rfl, rfl, rfl, rfl, rfl, rfl, rfl, rfl, rfl, rfl, rfl, rfl, rfl, rfl, rfl⟩

theorem SameBase.trans {a b c : State} (h : SameBase a b) (k : SameBase b c) : SameBase a c :=
  ⟨k.1.trans h.1, k.2.trans h.2, k.3.trans h.3, k.4.trans h.4, k.5.trans h.5, k.6.trans h.6,
    k.7.trans h.7, k.8.trans h.8, k.9.trans h.9, k.10.trans h.10, k.11.trans h.11,
    k.12.trans h.12, k.13.trans h.13, k.14.trans h.14, k.15.trans h.15⟩

theorem raise_same (k : AttnKind) (d : List Field) (s : State) : SameBase s (raise k d s) :=
  ⟨rfl, rfl, rfl, rfl, rfl, rfl, rfl, rfl, rfl, rfl, rfl, rfl, rfl, rfl, rfl⟩

theorem appendRecord_same (r : QueueRecord) (s : State) : SameBase s (appendRecord r s) := by
  unfold appendRecord
  dsimp only
  split <;> exact ⟨rfl, rfl, rfl, rfl, rfl, rfl, rfl, rfl, rfl, rfl, rfl, rfl, rfl, rfl, rfl⟩

theorem dropRecord_same (s : State) : SameBase s (dropRecord s) :=
  ⟨rfl, rfl, rfl, rfl, rfl, rfl, rfl, rfl, rfl, rfl, rfl, rfl, rfl, rfl, rfl⟩

theorem appendGap_same (s : State) : SameBase s (appendGap s) :=
  SameBase.trans (b := { s with results := { s.results with gaps := 0, gapLimit := false } })
    ⟨rfl, rfl, rfl, rfl, rfl, rfl, rfl, rfl, rfl, rfl, rfl, rfl, rfl, rfl, rfl⟩
    (appendRecord_same _ _)

theorem offer_same (r : QueueRecord) (s : State) : SameBase s (offer r s) := by
  unfold offer
  dsimp only
  split
  · split
    · exact appendRecord_same _ _
    · exact dropRecord_same _
  · split
    · exact (appendGap_same s).trans (appendRecord_same _ _)
    · split
      · exact (appendGap_same s).trans (dropRecord_same _)
      · exact dropRecord_same _

theorem Moves.same {s t : State} (h : Moves s t) : SameBase s t := by
  induction h with
  | refl => exact .refl s
  | raise k d _ ih => exact ih.trans (raise_same k d _)
  | offer r _ ih => exact ih.trans (offer_same r _)
  | slot _ _ _ _ ih =>
    exact ih.trans ⟨rfl, rfl, rfl, rfl, rfl, rfl, rfl, rfl, rfl, rfl, rfl, rfl, rfl, rfl, rfl⟩
  | flag _ _ _ ih =>
    exact ih.trans ⟨rfl, rfl, rfl, rfl, rfl, rfl, rfl, rfl, rfl, rfl, rfl, rfl, rfl, rfl, rfl⟩
  | markers _ _ ih =>
    exact ih.trans ⟨rfl, rfl, rfl, rfl, rfl, rfl, rfl, rfl, rfl, rfl, rfl, rfl, rfl, rfl, rfl⟩
  | mark _ _ ih =>
    exact ih.trans ⟨rfl, rfl, rfl, rfl, rfl, rfl, rfl, rfl, rfl, rfl, rfl, rfl, rfl, rfl, rfl⟩
  | entries _ _ _ ih =>
    exact ih.trans ⟨rfl, rfl, rfl, rfl, rfl, rfl, rfl, rfl, rfl, rfl, rfl, rfl, rfl, rfl, rfl⟩
  | choices _ _ ih =>
    exact ih.trans ⟨rfl, rfl, rfl, rfl, rfl, rfl, rfl, rfl, rfl, rfl, rfl, rfl, rfl, rfl, rfl⟩

/-! ## The operations -/

theorem publish_moves (report : Bool) (r : Record) (s : State) : Moves s (publish report r s) := by
  unfold publish signalDone
  split
  · exact ((Moves.refl.offer _).raise _ _).markers _
  · exact (Moves.refl.raise _ _).markers _

theorem applySlot_moves (i : Fin 8) (out : SlotOut) (s : State)
    (h : SlotSound (s.slots.get i) → SlotSound out.1) : Moves s (applySlot i out s) := by
  unfold applySlot refreshSlotMarkers
  exact ((Moves.refl.slot i out.1 h).trans
    (Moves.foldl (fun s r => publish_moves _ r s) _ _)).markers _

theorem takeSlotBoundary_moves (i : Fin 8) (b : Boundary × Stamp) (s : State)
    (h : (s.slots.get i).state ≠ .idle) : Moves s (takeSlotBoundary i b s) :=
  applySlot_moves _ _ _ fun _ => Slot.takeBoundary_sound _ _ _ _ h

theorem settleSlotLoop_moves (fuel : Nat) (i : Fin 8) (s : State) :
    Moves s (settleSlotLoop fuel i s) := by
  induction fuel generalizing s with
  | zero => exact .refl
  | succ fuel ih =>
    unfold settleSlotLoop
    split
    · exact .refl
    · rename_i b _ n h
      have hr := Slot.runs_of_due (choose_mem h).1
      exact ((Moves.refl.choices n).trans
        (takeSlotBoundary_moves i b { s with choices := n } hr)).trans (ih _)

theorem settleSlot_moves (s : State) (i : Fin 8) : Moves s (settleSlot s i) :=
  settleSlotLoop_moves _ _ _

theorem slotEvent_moves (i : Fin 8) (out : SlotOut) (s : State)
    (h : SlotSound (s.slots.get i) → SlotSound out.1) : Moves s (slotEvent i out s) :=
  (applySlot_moves i out s h).trans (settleSlot_moves _ _)

theorem moveMark_moves (w : Stamp) (s : State) : Moves s (moveMark w s) := by
  unfold moveMark
  split
  · exact (Moves.refl.mark w).trans (Moves.foldl settleSlot_moves _ _)
  · exact .refl

theorem deliverTo_moves (e : Edge) (s : State) (i : Fin 8) : Moves s (deliverTo e s i) := by
  unfold deliverTo
  dsimp only
  split
  · exact slotEvent_moves i _ s fun h => Slot.deliver_sound _ _ _ h
  · exact .refl

theorem deliverEdge_moves (e : Edge) (s : State) : Moves s (deliverEdge e s) := by
  unfold deliverEdge toggleDividers
  dsimp only
  refine Moves.markers _ (Moves.trans (b := if (s.channels.get e.channel).set.stream = true then
    offer e.stampRecord s else s) ?_ (Moves.foldl (deliverTo_moves e) _ _))
  split
  · exact Moves.refl.offer _
  · exact .refl

theorem release_moves (s : State) (e : Edge) : Moves s (release s e) :=
  (moveMark_moves _ s).trans (deliverEdge_moves e _)

theorem frontierAdvance_moves (f : Stamp) (s : State) : Moves s (frontierAdvance f s) := by
  unfold frontierAdvance
  dsimp only
  refine Moves.trans (Moves.trans ?_ (Moves.foldl release_moves _ _)) (moveMark_moves _ _)
  exact Moves.refl.entries _ (.inr (List.length_dropWhile_le _ _))

theorem dropLate_moves (e : Edge) (s : State) : Moves s (dropLate e s) :=
  (Moves.refl.raise _ _).flag _ _

theorem insertEdge_length (e : Edge) (l : List Edge) :
    (insertEdge e l).length = l.length + 1 := by
  induction l with
  | nil => rfl
  | cons x xs ih => unfold insertEdge; split <;> simp [ih]

theorem forcedRelease_moves (e : Edge) (s : State) : Moves s (forcedRelease e s) := by
  unfold forcedRelease
  split
  · exact .refl
  · rename_i first rest h
    dsimp only
    refine Moves.flag _ _ (Moves.raise _ _
      (Moves.trans (Moves.refl.entries _ (.inr ?_)) (Moves.foldl release_moves _ _)))
    have := insertEdge_length e s.queue.entries
    rw [h] at this
    have := List.length_dropWhile_le (fun x : Edge => x.stamp == first.stamp) rest
    simp at *
    omega

theorem arrive_moves (e : Edge) (s : State) : Moves s (arrive e s) := by
  unfold arrive
  split
  · exact dropLate_moves e s
  · split
    · rename_i h
      refine Moves.refl.entries _ (.inl ?_)
      rw [insertEdge_length]
      simpa [Config.queueEntries] using h
    · exact forcedRelease_moves e s

theorem endSlotsOnStep_moves (s : State) : Moves s (endSlotsOnStep s) :=
  Moves.foldl (fun s i => applySlot_moves i _ s fun h => Slot.epochEnd_sound i h) _ _

theorem settleMarker_moves (s : State) (i : Fin 4) : Moves s (settleMarker s i) := by
  unfold settleMarker
  dsimp only
  split
  · exact .refl
  · exact (Moves.refl.markers _).choices _

end Sys2Proof.Machine
end

