-- ==== Sys2Proof/Laws/Queue.lean ====
section
/-!
SUPPORT. What the release sequence does to the Ordering Queue: only the move of W and the frontier advance
touch it, and no slot event, delivery or offer does.
-/

namespace Sys2Proof.Machine

theorem offer_queue (r : QueueRecord) (s : State) : (offer r s).queue = s.queue := by
  unfold offer appendGap appendRecord dropRecord
  dsimp only
  repeat' split
  all_goals rfl

theorem publish_queue (b : Bool) (r : Record) (s : State) : (publish b r s).queue = s.queue := by
  unfold publish
  split <;> simp [offer_queue]

theorem foldl_queue {α : Type} {f : State → α → State} (h : ∀ s a, (f s a).queue = s.queue)
    (l : List α) (s : State) : (l.foldl f s).queue = s.queue := by
  induction l generalizing s with
  | nil => rfl
  | cons a l ih => simp [ih, h]

theorem applySlot_queue (i : Fin 8) (o : SlotOut) (s : State) :
    (applySlot i o s).queue = s.queue := by
  unfold applySlot
  simp only [refreshSlotMarkers_queue]
  rw [foldl_queue fun s r => publish_queue _ r s]
  rfl

theorem settleSlotLoop_queue (n : Nat) (i : Fin 8) (s : State) :
    (settleSlotLoop n i s).queue = s.queue := by
  induction n generalizing s with
  | zero => rfl
  | succ n ih =>
    unfold settleSlotLoop
    split
    · rfl
    · rw [ih, takeSlotBoundary, applySlot_queue]

theorem settleSlot_queue (s : State) (i : Fin 8) : (settleSlot s i).queue = s.queue :=
  settleSlotLoop_queue _ _ _

/-- A move of the release mark sets W where the time is later, and nothing else of the queue (R77). -/
theorem moveMark_queue (f : Stamp) (s : State) :
    (moveMark f s).queue = if later f s.queue.mark then { s.queue with mark := f } else s.queue := by
  unfold moveMark
  split
  · rw [foldl_queue settleSlot_queue]
  · rfl

theorem deliverTo_queue (e : Edge) (s : State) (i : Fin 8) : (deliverTo e s i).queue = s.queue := by
  unfold deliverTo slotEvent
  dsimp only
  split
  · rw [settleSlot_queue, applySlot_queue]
  · rfl

theorem deliverEdge_queue (e : Edge) (s : State) : (deliverEdge e s).queue = s.queue := by
  unfold deliverEdge
  simp only [toggleDividers_queue]
  rw [foldl_queue (deliverTo_queue e)]
  split
  · exact offer_queue _ _
  · rfl

/-- One release moves W to the edge's stamp where that is later (R82). -/
theorem release_queue (s : State) (e : Edge) :
    (release s e).queue =
      if later e.stamp s.queue.mark then { s.queue with mark := e.stamp } else s.queue := by
  unfold release
  rw [deliverEdge_queue, moveMark_queue]

theorem release_entries (s : State) (e : Edge) :
    (release s e).queue.entries = s.queue.entries := by
  rw [release_queue]
  split <;> rfl

theorem foldl_release_entries (l : List Edge) (s : State) :
    (l.foldl release s).queue.entries = s.queue.entries := by
  induction l generalizing s with
  | nil => rfl
  | cons a l ih => simp [ih, release_entries]

theorem moveMark_entries (f : Stamp) (s : State) :
    (moveMark f s).queue.entries = s.queue.entries := by
  rw [moveMark_queue]
  split <;> rfl

/-- A frontier advance leaves the entries from the first one later than the frontier on (R81). -/
theorem frontierAdvance_entries (f : Stamp) (s : State) :
    (frontierAdvance f s).queue.entries =
      s.queue.entries.dropWhile fun e => !later e.stamp f := by
  unfold frontierAdvance
  dsimp only
  rw [moveMark_entries, foldl_release_entries]
  rfl

theorem later_self (f : Stamp) : later f f = false := by simp [later, stampDiff]

/-- After a move of the mark to `f`, `f` is not later than W (R77). -/
theorem moveMark_reaches (f : Stamp) (s : State) : later f (moveMark f s).queue.mark = false := by
  rw [moveMark_queue]
  split
  · exact later_self f
  · next h => exact Bool.eq_false_iff.mpr h

/-- After a frontier advance the frontier is not later than W (R77, R81). -/
theorem frontierAdvance_mark (f : Stamp) (s : State) :
    later f (frontierAdvance f s).queue.mark = false := moveMark_reaches f _

/-! ## Boundaries that are due (R92) -/

/-- The one thing that falls at a moment is chosen without a free choice. -/
theorem choose_single {α : Type} (n : Nat) (a : α) : choose n [a] = some (a, [], n) := rfl

/-- Where every boundary of a slot lies after W, none is due. -/
theorem due_of_all_later {x : Slot} {w : Stamp}
    (h : (x.boundaries.all fun b => later b.2 w) = true) : x.due w = [] := by
  have : x.reached w = [] := by
    simp only [Slot.reached, notLater, List.filter_eq_nil_iff]
    intro b hb
    simpa using List.all_eq_true.mp h b hb
  rw [Slot.due, this]
  rfl

/-- The one boundary of a slot is due where it does not lie after W. -/
theorem due_of_single {x : Slot} {w b : Stamp} {k : Boundary} (h : x.boundaries = [(k, b)])
    (hb : later b w = false) : x.due w = [(k, b)] := by
  simp [Slot.due, Slot.reached, h, notLater, hb, earliestOf]

/-- A slot without a due boundary is left as it is (R92). -/
theorem settleSlot_of_none_due {s : State} {i : Fin 8}
    (h : (s.slots.get i).due s.queue.mark = []) : settleSlot s i = s := by
  simp [settleSlot, settleFuel, h, settleSlotLoop]

/-- A slot event leaves the slot as the event left it. -/
theorem applySlot_slots (i : Fin 8) (o : SlotOut) (s : State) :
    (applySlot i o s).slots = s.slots.set i o.1 := by
  unfold applySlot
  have offer_slots : ∀ (r : QueueRecord) (s : State), (offer r s).slots = s.slots := by
    intro r s
    unfold offer appendGap appendRecord dropRecord
    dsimp only
    repeat' split
    all_goals rfl
  have publish_slots : ∀ (b : Bool) (r : Record) (s : State), (publish b r s).slots = s.slots := by
    intro b r s
    unfold publish
    split <;> simp [offer_slots]
  have foldl_slots : ∀ (l : List Record) (s : State),
      (l.foldl (fun s r => publish o.1.config.report r s) s).slots = s.slots := by
    intro l
    induction l with
    | nil => intro s; rfl
    | cons a l ih => intro s; simp [ih, publish_slots]
  simp only [refreshSlotMarkers_slots, foldl_slots]
  rfl

/-- A slot event without a result, after which nothing is due, changes the slot and the markers that
follow it (R92, R149). -/
theorem slotEvent_quiet {i : Fin 8} {y : Slot} {s : State} (h : y.due s.queue.mark = []) :
    slotEvent i (y, []) s = refreshSlotMarkers i (s.setSlot i y) := by
  have e : applySlot i (y, []) s = refreshSlotMarkers i (s.setSlot i y) := rfl
  unfold slotEvent
  rw [e]
  refine settleSlot_of_none_due ?_
  show ((s.slots.set i y).get i).due s.queue.mark = []
  rw [Bank.get_set_self]
  exact h

end Sys2Proof.Machine
end

