-- ==== Sys2Proof/Tests/Slice0.lean ====
section
/-!
SUPPORT. Tests of the model against the spec's own examples and words, the smoke test of `wellFormed`, and
for each statement with hypotheses a state that meets them.
-/

namespace Sys2Proof.Tests

open Sys2Proof Sys2Proof.Machine

-- The tests are checked one after another: side by side their threads pass the memory limit.
set_option Elab.async false

/-! ## Helpers -/

/-- The state a row leaves. -/
def ran (i : Instr) (s : State) : State :=
  match exec i s with
  | .next t => t
  | .fault _ => s
  | .refused _ => s

/-- A part in LOCKED, ACTIVE at address 1, with everything else as after power-on. -/
def base : State :=
  { State.reset with
    link := { Link.reset with align := .locked }
    node := { address := 1, state := .active } }

/-- A command cell to node 1, and one by broadcast, with tag 0. -/
def cmd : Cell := ⟨0x31, 0⟩
def toAll : Cell := ⟨0x3F, 0⟩

/-- The reply a row queued last: its code, and the values of its fields. -/
def answer (i : Instr) (s : State) : Option (ReplyCode × List Nat) :=
  (ran i s).command.replies.getLast?.map fun r => (r.code, r.fields.map (·.value))

/-- The stamp of a coarse count and a remainder. -/
def at_ (count rest : Nat) : Stamp := BitVec.ofNat 59 (count * 4096 + rest)

def withSlot (i : Fin 8) (x : Slot) (s : State) : State := s.setSlot i x
def withMarker (i : Fin 4) (x : Marker) (s : State) : State := s.setMarker i x
def withChannel (c : Fin 16) (x : Channel) (s : State) : State := s.setChannel c x
def withLoad (l : LoadBuffer) (s : State) : State := { s with command := { s.command with load := l } }
def withMark (w : Stamp) (s : State) : State := { s with queue := { s.queue with mark := w } }
def withReplies (n : Nat) (s : State) : State :=
  { s with command := { s.command with replies := List.replicate n ⟨0, .done, []⟩ } }

/-! ## WellFormed refuses an ill-formed term of each check -/

/-- The COMMAND cell with command code `n`, addressed to node 1. -/
def codeCell (n : Nat) : Cell := ⟨0x31, BitVec.ofNat 64 (n * 2 ^ 48)⟩

theorem test_wf_hunt : (Instr.huntCellStart (List.replicate 19 0)).wellFormed = false := by decide
theorem test_wf_relay_kind : (Instr.relayCell ⟨0x31, 0⟩).wellFormed = false ∧
    (Instr.relayCell ⟨0x1F, 0⟩).wellFormed = false ∧
    (Instr.relayCell ⟨0x2F, 0⟩).wellFormed = false := by decide
theorem test_wf_edge_kind :
    (Instr.edgeCell ⟨0x2F, 0⟩ 0 0 .rise 0 0 false).wellFormed = false := by decide
theorem test_wf_epoch_kind : (Instr.epochCell ⟨0x1F, 0⟩ 0).wellFormed = false := by decide
theorem test_wf_command_code :
    (Instr.nodeReset (codeCell 4)).wellFormed = false ∧
    (Instr.nodeReset ⟨0x41, 3 * 2 ^ 48⟩).wellFormed = false ∧
    (Instr.nodeReset (codeCell 3)).wellFormed = true := by decide
theorem test_wf_widths_node :
    (Instr.name (codeCell 0) 16).wellFormed = false ∧
    (Instr.mode (codeCell 1) 4).wellFormed = false ∧
    (Instr.ident (codeCell 2) 4).wellFormed = false ∧
    (Instr.status (codeCell 4) (.other 4)).wellFormed = false ∧
    (Instr.status (codeCell 4) (.other 8)).wellFormed = false := by decide
theorem test_wf_widths_time :
    (Instr.timeSetHorizon (codeCell 7) 65536).wellFormed = false ∧
    (Instr.timeSetTrim (codeCell 7) 1024).wellFormed = false := by decide
theorem test_wf_widths_channel :
    (Instr.chanWrite (codeCell 8) 16 (.enable 0)).wellFormed = false ∧
    (Instr.chanWrite (codeCell 8) 0 (.enable 2)).wellFormed = false ∧
    (Instr.chanWrite (codeCell 8) 0 (.sense 4)).wellFormed = false ∧
    (Instr.chanWrite (codeCell 8) 0 (.invert 2)).wellFormed = false ∧
    (Instr.chanWrite (codeCell 8) 0 (.table 8)).wellFormed = false ∧
    (Instr.chanWrite (codeCell 8) 0 (.deskew 1048576)).wellFormed = false ∧
    (Instr.chanWrite (codeCell 8) 0 (.deskew (-1048577))).wellFormed = false ∧
    (Instr.chanWrite (codeCell 8) 0 (.holdoff 65536)).wellFormed = false ∧
    (Instr.chanWrite (codeCell 8) 0 (.prescale 131072)).wellFormed = false ∧
    (Instr.chanWrite (codeCell 8) 0 (.stream 2)).wellFormed = false ∧
    (Instr.chanWrite (codeCell 8) 0 (.other 7)).wellFormed = false ∧
    (Instr.chanRead (codeCell 9) 16 .setup).wellFormed = false ∧
    (Instr.chanRead (codeCell 9) 0 (.other 5)).wellFormed = false := by decide
theorem test_wf_widths_loads :
    (Instr.loadOpen (codeCell 10) (.lin 8) 0 1).wellFormed = false ∧
    (Instr.loadOpen (codeCell 10) (.other 9) 0 1).wellFormed = false ∧
    (Instr.loadOpen (codeCell 10) .map 256 1).wellFormed = false ∧
    (Instr.loadOpen (codeCell 10) .map 0 128).wellFormed = false ∧
    (Instr.loadData (codeCell 11) [0, 0, 0, 0]).wellFormed = false ∧
    (Instr.tableRead (codeCell 14) .histogram 512).wellFormed = false ∧
    (Instr.tableRead (codeCell 14) (.other 8) 0).wellFormed = false ∧
    (Instr.tableRead (codeCell 14) (.lin 8) 0).wellFormed = false := by decide
theorem test_wf_widths_cal :
    (Instr.calRun (codeCell 15) 8 0 12 1 0).wellFormed = false ∧
    (Instr.calRun (codeCell 15) 0 16 12 1 0).wellFormed = false ∧
    (Instr.calRun (codeCell 15) 0 0 32 1 0).wellFormed = false ∧
    (Instr.calRun (codeCell 15) 0 0 12 65536 0).wellFormed = false ∧
    (Instr.calRun (codeCell 15) 0 0 12 1 256).wellFormed = false := by decide
theorem test_wf_widths_slots :
    (Instr.slotSet (codeCell 17) 8 (.kind 0)).wellFormed = false ∧
    (Instr.slotSet (codeCell 17) 0 (.kind 4)).wellFormed = false ∧
    (Instr.slotSet (codeCell 17) 0 (.endpointA 16 0)).wellFormed = false ∧
    (Instr.slotSet (codeCell 17) 0 (.endpointA 0 4)).wellFormed = false ∧
    (Instr.slotSet (codeCell 17) 0 (.endpointB true 16 0)).wellFormed = false ∧
    (Instr.slotSet (codeCell 17) 0 (.endpointB true 0 4)).wellFormed = false ∧
    (Instr.slotSet (codeCell 17) 0 (.armSource (.armEdge 16 0))).wellFormed = false ∧
    (Instr.slotSet (codeCell 17) 0 (.armSource (.other 2))).wellFormed = false ∧
    (Instr.slotSet (codeCell 17) 0 (.gateMode (.external 0 2))).wellFormed = false ∧
    (Instr.slotSet (codeCell 17) 0 (.gateMode (.external 16 0))).wellFormed = false ∧
    (Instr.slotSet (codeCell 17) 0 (.gateMode (.plan 64))).wellFormed = false ∧
    (Instr.slotSet (codeCell 17) 0 (.gateMode (.other 3))).wellFormed = false ∧
    (Instr.slotSet (codeCell 17) 0 (.gateLength (2 ^ 41))).wellFormed = false ∧
    (Instr.slotSet (codeCell 17) 0 (.repeats 65536)).wellFormed = false ∧
    (Instr.slotSet (codeCell 17) 0 (.samples 65536)).wellFormed = false ∧
    (Instr.slotSet (codeCell 17) 0 (.restart 2)).wellFormed = false ∧
    (Instr.slotSet (codeCell 17) 0 (.sharedEdge 2)).wellFormed = false ∧
    (Instr.slotSet (codeCell 17) 0 (.closeTimeout (2 ^ 32))).wellFormed = false ∧
    (Instr.slotSet (codeCell 17) 0 (.report 2)).wellFormed = false ∧
    (Instr.slotSet (codeCell 17) 0 (.other 11)).wellFormed = false ∧
    (Instr.slotGet (codeCell 18) 8 .setup).wellFormed = false ∧
    (Instr.slotGet (codeCell 18) 0 (.result 8)).wellFormed = false ∧
    (Instr.slotGet (codeCell 18) 0 (.other 4)).wellFormed = false := by decide
theorem test_wf_widths_runs :
    (Instr.arm (codeCell 19) 8).wellFormed = false ∧
    (Instr.armAt (codeCell 20) 0 (2 ^ 47)).wellFormed = false ∧
    (Instr.armAt (codeCell 20) 8 0).wellFormed = false ∧
    (Instr.stop (codeCell 21) 8).wellFormed = false ∧
    (Instr.hold (codeCell 22) 8).wellFormed = false ∧
    (Instr.resume (codeCell 23) 8).wellFormed = false := by decide
theorem test_wf_widths_markers :
    (Instr.markSetSource (codeCell 24) 4 .off).wellFormed = false ∧
    (Instr.markSetSource (codeCell 24) 0 (.gate 8)).wellFormed = false ∧
    (Instr.markSetSource (codeCell 24) 0 (.armed 8)).wellFormed = false ∧
    (Instr.markSetSource (codeCell 24) 0 (.done 8)).wellFormed = false ∧
    (Instr.markSetSource (codeCell 24) 0 (.step 8 0)).wellFormed = false ∧
    (Instr.markSetSource (codeCell 24) 0 (.step 0 4)).wellFormed = false ∧
    (Instr.markSetSource (codeCell 24) 0 (.divider 16)).wellFormed = false ∧
    (Instr.markSetSource (codeCell 24) 0 (.timebase (2 ^ 33))).wellFormed = false ∧
    (Instr.markSetSource (codeCell 24) 0 (.other 8)).wellFormed = false ∧
    (Instr.markSetInvert (codeCell 24) 4 0).wellFormed = false ∧
    (Instr.markSetInvert (codeCell 24) 0 2).wellFormed = false ∧
    (Instr.markSetWidth (codeCell 24) 4 0).wellFormed = false ∧
    (Instr.markSetWidth (codeCell 24) 0 65536).wellFormed = false ∧
    (Instr.markLevel (codeCell 25) 4 0).wellFormed = false ∧
    (Instr.markLevel (codeCell 25) 0 2).wellFormed = false := by decide
theorem test_wf_widths_other :
    (Instr.queueSet (codeCell 26) 1024).wellFormed = false ∧
    (Instr.unknownCommand (codeCell 26) 26).wellFormed = false ∧
    (Instr.unknownCommand (codeCell 27) 28).wellFormed = false := by decide
theorem test_wf_widths_masks :
    (Instr.clear (codeCell 6) 0 false).wellFormed = false ∧
    (Instr.attnSet (codeCell 5) 0 0 false).wellFormed = false := by decide

/-! ## Words written out from Tables 11-1 and 11-2 and R161 -/

/-- EDGE: slice 2, lane 1, FALL, lost-before, coarse16 0xFFFB, fine code 101. -/
theorem test_decode_edge : decodeCell ⟨0x10, 0x1380FFFB65000000⟩ =
    .edgeCell ⟨0x10, 0x1380FFFB65000000⟩ 2 1 .fall 0xFFFB 101 true := by decide

/-- EPOCH: E = 5,000,000,000 in the low 47 bits of bytes 0 to 5; bit 47 is not examined. -/
theorem test_decode_epoch : decodeCell ⟨0x20, 0x80012A05F2000000⟩ =
    .epochCell ⟨0x20, 0x80012A05F2000000⟩ 5000000000 := by decide

/-- NAME(1), MODE BYPASS, IDENT SIZES (item 1) and NODE-RESET. -/
theorem test_decode_node :
    decodeCell ⟨0x30, 0x0100100000000000⟩ = .name ⟨0x30, 0x0100100000000000⟩ 1 ∧
    decodeCell ⟨0x31, 0x0001800000000000⟩ = .mode ⟨0x31, 0x0001800000000000⟩ 2 ∧
    decodeCell ⟨0x31, 0x0002400000000000⟩ = .ident ⟨0x31, 0x0002400000000000⟩ 1 ∧
    decodeCell ⟨0x31, 0x0003000000000000⟩ = .nodeReset ⟨0x31, 0x0003000000000000⟩ ∧
    decodeCell ⟨0x31, 0x0004600000000000⟩ = .status ⟨0x31, 0x0004600000000000⟩ .load := by decide

/-- CLEAR of LOAD with the link error count; ATTN-SET of 12.8. -/
theorem test_decode_attentions :
    decodeCell ⟨0x32, 0x0A05002800000000⟩ = .clear ⟨0x32, 0x0A05002800000000⟩ 2 true ∧
    decodeCell ⟨0x3F, 0x0306FFF012000000⟩ =
      .attnSet ⟨0x3F, 0x0306FFF012000000⟩ 0xFFF 0x012 false := by decide

/-- TIME-SET TRIM(12) and TIME-SET COUNT. -/
theorem test_decode_time :
    decodeCell ⟨0x31, 0x000740C000000000⟩ = .timeSetTrim ⟨0x31, 0x000740C000000000⟩ 12 ∧
    decodeCell ⟨0x31, 0x0007C00000000000⟩ = .timeSetCount ⟨0x31, 0x0007C00000000000⟩ := by decide

/-- CHAN-WRITE(5, holdoff, 10), CHAN-WRITE(4, deskew, −1), CHAN-READ(4, COUNTS). -/
theorem test_decode_channel :
    decodeCell ⟨0x32, 0x08085A0014000000⟩ =
      .chanWrite ⟨0x32, 0x08085A0014000000⟩ 5 (.holdoff 10) ∧
    decodeCell ⟨0x31, 0x000849FFFFF00000⟩ =
      .chanWrite ⟨0x31, 0x000849FFFFF00000⟩ 4 (.deskew (-1)) ∧
    decodeCell ⟨0x31, 0x0009460000000000⟩ =
      .chanRead ⟨0x31, 0x0009460000000000⟩ 4 .counts := by decide

/-- LOAD-OPEN LIN 5, first 16, count 8; LOAD-DATA of two words; TABLE-READ(HISTOGRAM, 257). -/
theorem test_decode_loads :
    decodeCell ⟨0x32, 0x040A510100000000⟩ =
      .loadOpen ⟨0x32, 0x040A510100000000⟩ (.lin 5) 16 8 ∧
    decodeCell ⟨0x32, 0x098B067406840000⟩ =
      .loadData ⟨0x32, 0x098B067406840000⟩ [0x0674, 0x0684] ∧
    decodeCell ⟨0x31, 0x000E880800000000⟩ =
      .tableRead ⟨0x31, 0x000E880800000000⟩ .histogram 257 := by decide

/-- CAL-RUN(6, 6, 12, 10, 2). -/
theorem test_decode_calibration : decodeCell ⟨0x31, 0x000FCCC000A02000⟩ =
    .calRun ⟨0x31, 0x000FCCC000A02000⟩ 6 6 12 10 2 := by decide

/-- SLOT-SET(3, endpoint B, channel 9 FALL), SLOT-SET(3, gate length, 250,000), SLOT-GET(3, RESULT 6),
ARM-AT(5, 7), STOP(3). -/
theorem test_decode_slots :
    decodeCell ⟨0x31, 0x0011659400000000⟩ =
      .slotSet ⟨0x31, 0x0011659400000000⟩ 3 (.endpointB true 9 1) ∧
    decodeCell ⟨0x31, 0x00116A000003D090⟩ =
      .slotSet ⟨0x31, 0x00116A000003D090⟩ 3 (.gateLength 250000) ∧
    decodeCell ⟨0x31, 0x0012730000000000⟩ =
      .slotGet ⟨0x31, 0x0012730000000000⟩ 3 (.result 6) ∧
    decodeCell ⟨0x31, 0x0094800000000007⟩ = .armAt ⟨0x31, 0x0094800000000007⟩ 5 7 ∧
    decodeCell ⟨0x31, 0x0015600000000000⟩ = .stop ⟨0x31, 0x0015600000000000⟩ 3 := by decide

/-- MARK-SET(1, SOURCE, TIMEBASE(2^32)), MARK-LEVEL(3, INACTIVE), QUEUE-SET(512), code 63. -/
theorem test_decode_rest :
    decodeCell ⟨0x31, 0x00184F0000000000⟩ =
      .markSetSource ⟨0x31, 0x00184F0000000000⟩ 1 (.timebase (2 ^ 32)) ∧
    decodeCell ⟨0x31, 0x0019E00000000000⟩ = .markLevel ⟨0x31, 0x0019E00000000000⟩ 3 1 ∧
    decodeCell ⟨0x31, 0x001A800000000000⟩ = .queueSet ⟨0x31, 0x001A800000000000⟩ 512 ∧
    decodeCell ⟨0x31, 0x003F000000000000⟩ = .unknownCommand ⟨0x31, 0x003F000000000000⟩ 63 ∧
    decodeCell ⟨0x41, 0⟩ = .relayCell ⟨0x41, 0⟩ ∧
    decodeCell ⟨0x80, 0⟩ = .relayCell ⟨0x80, 0⟩ := by decide

/-- The check byte of the cell 31 00 … 00 is FE, by the polynomial division of R155; its groups. -/
theorem test_check_byte : cellCheck ⟨0x31, 0⟩ = 0xFE ∧
    (cellGroups ⟨0x31, 0⟩).take 4 = [0b01101, 0b01010, 0b01001, 0b01001] ∧
    (cellGroups ⟨0x31, 0⟩).drop 18 = [0b11101, 0b11011] := by decide +kernel

/-- A violation, a mixed cell and a wrong check byte are bad (R155). -/
theorem test_bad_cells :
    judgeGroups (List.replicate 20 0b00000) = .bad ∧
    judgeGroups (0b01001 :: List.replicate 19 0b11111) = .bad ∧
    judgeGroups (List.replicate 20 0b01001) = .bad := by decide +kernel

/-- R155 says that the CELL-START pattern 11000 arises across no boundary of two recognised groups. By its
own table it does where a group that ends in 1 stands before that of 0x5, 10001, as in 01001 10001 for 0x0
and 0x5, and nowhere else. The model follows the table (log entry 30). -/
theorem test_cell_start_across_groups :
    ((lineSymbols [0b01001, 0b10001]).drop 4).take 5 = groupSymbols cellStart ∧
    ∀ a ∈ fillMark :: dataGroups, ∀ b ∈ fillMark :: dataGroups, ∀ k ∈ [1, 2, 3, 4],
      (((lineSymbols [a, b]).drop k).take 5 = groupSymbols cellStart ↔
        k = 4 ∧ a.getLsbD 0 = true ∧ b = 0b10001) := by decide +kernel

/-- What the part has become after line symbols: its alignment, good run, bad run and error count, and how
many symbols are left. -/
def heard (n : Nat) (line : List Bool) (s : State) : Option (Machine.Alignment × Nat × Nat × Nat × Nat) :=
  match receiveLine n line s with
  | .next (t, others) =>
    some (t.link.align, t.link.goodRun, t.link.badRun, t.link.errors, others.length)
  | _ => none

/-- The symbols of a FILL cell, of the cell 31 00 … 00, and of a FILL cell whose start is no CELL-START. -/
def fillLine : List Bool := lineSymbols (cellStart :: List.replicate 20 fillMark)
def dataLine : List Bool := lineSymbols (cellStart :: cellGroups ⟨0x31, 0⟩)
def brokenLine : List Bool := lineSymbols (0b11100 :: List.replicate 20 fillMark)

/-- From HUNT, behind three stray symbols and a CELL-START that no FILL cell follows, the fifth good FILL
cell makes the part LOCKED, and the symbols of a cell not yet whole are left (R156). -/
theorem test_search_and_lock :
    heard 9 ([true, false, true] ++ dataLine ++ fillLine ++ fillLine) State.reset =
      some (.confirming, 1, 0, 0, 0) ∧
    heard 9 ([true] ++ groupSymbols cellStart ++ fillLine ++ fillLine ++ fillLine ++ fillLine ++
      fillLine ++ [true, true]) State.reset = some (.locked, 4, 0, 0, 2) := by decide +kernel

/-- At the fixed alignment a start group that is not CELL-START is a bad cell in LOCKED, and takes
CONFIRMING back to HUNT, where the search goes on behind that cell (R155, R156). -/
theorem test_start_group_is_judged :
    heard 1 brokenLine base = some (.locked, 0, 1, 1, 0) ∧
    heard 2 (brokenLine ++ fillLine) base = some (.locked, 0, 0, 1, 0) ∧
    heard 2 (brokenLine ++ fillLine) { base with link := { Link.reset with align := .confirming } } =
      some (.confirming, 0, 0, 0, 0) := by decide +kernel

/-! ## Time and edges: the examples of chapters 1 to 3 -/

/-- The part of 1.8 at a count, its trim 12. -/
def timed (count : Nat) (epoch : EpochState) : State :=
  { base with
    timebase :=
      { count := BitVec.ofNat 47 count, epoch := epoch, trim := 12, horizon := 8192
        outcome := .never, offset := 0 } }

theorem test_epoch_loaded :
    (ran (.epochCell ⟨0x20, 0⟩ 5000000000) (timed 2000000 .unset)).timebase =
      { count := 5000000012, epoch := .set, trim := 12, horizon := 8192, outcome := .loaded
        offset := 0 } ∧
    (ran (.epochCell ⟨0x20, 0⟩ 5000000000) (timed 2000000 .unset)).queue.mark =
      at_ 4999991820 0 := by decide +kernel

theorem test_epoch_confirm :
    (ran (.epochCell ⟨0x20, 0⟩ 5250000001) (timed 5250000012 .set)).timebase.offset = 1 ∧
    (ran (.epochCell ⟨0x20, 0⟩ 5250000001) (timed 5250000012 .set)).timebase.count = 5250000012 ∧
    (ran (.epochCell ⟨0x20, 0⟩ 5500000500) (timed 5500000012 .set)).timebase =
      { count := 5500000512, epoch := .set, trim := 12, horizon := 8192, outcome := .step
        offset := 500 } := by decide +kernel

theorem test_time_set :
    answer (.timeSetTrim cmd 12) base = some (.done, [8192, 12, 0, 0, 0]) ∧
    answer (.timeSetTrim cmd 1024) base = some (.range, [8192, 0, 0, 0, 0]) ∧
    answer (.timeSetHorizon cmd 255) base = some (.range, [8192, 0, 0, 0, 0]) ∧
    answer (.timeSetHorizon cmd 256) base = some (.done, [256, 0, 0, 0, 0]) ∧
    answer (.timeSetReport cmd) base = some (.done, [8192, 0, 0, 0, 0]) ∧
    answer (.timeSetCount cmd) (timed 5 .set) = some (.done, [5]) := by decide +kernel

theorem test_period_end :
    (ran .timebaseAdvance (timed (2 ^ 47 - 1) .set)).timebase.count = 0 ∧
    (ran .timebaseAdvance (timed 7 .set)).markerTime = 1 := by decide +kernel

/-- The table of 2.7, and its two cases at the wrap and of a slice held too long. -/
theorem test_coarse_extension :
    extendCoarse 0x100000005 0xFFFB = 4294967291 ∧
    extendCoarse 0x100000005 0x0002 = 4294967298 ∧
    extendCoarse 0x100000005 0x0010 = 4294967312 ∧
    extendCoarse 0x100000005 0x1009 = 4294905865 ∧
    extendCoarse 3 0xFFFE = 0x7FFFFFFFFFFE ∧
    extendCoarse 0x100000005 0x0D55 = 4294970709 := by decide

/-- Channel 4 of 3.14, with a deskew and a status. -/
def channel4 (deskew : BitVec 21) (st : ChanStatus) : Channel :=
  { set :=
      { enable := true, sense := .rise, invert := false, table := 4, deskew := deskew, holdoff := 25
        prescale := 3, stream := true }
    status := st }

/-- The stamps of Table 3-4 (R39). -/
theorem test_stamps :
    edgeStamp 1000000 3000 2048 = at_ 1000000 952 ∧
    edgeStamp 1000010 100 2048 = at_ 1000009 2148 ∧
    edgeStamp 1000030 2000 2048 = at_ 1000029 4048 ∧
    edgeStamp 1000035 500 40960 = at_ 1000025 500 ∧
    edgeStamp 1000070 1024 40960 = at_ 1000060 1024 := by decide

/-- The outcomes of E1, E3, E5 and E7 in Table 3-5. -/
theorem test_channel_filters :
    let g := (channel4 2048 .reset).set
    let st (last : Option Stamp) (phase : Nat) : ChanStatus :=
      { ChanStatus.reset with last := last, phase := phase }
    let e1 := at_ 1000000 952
    let e4 := at_ 1000029 4048
    judgeStamp g (st none 0) e1 = (.uncounted, st (some e1) 1) ∧
    judgeStamp g (st (some e1) 1) (at_ 1000009 2148) =
      (.suppressed, { st (some e1) 1 with suppressed := 1 }) ∧
    judgeStamp g (st (some e4) 2) (at_ 1000025 500) =
      (.orderFault, { st (some e4) 2 with orderFaults := 1 }) ∧
    judgeStamp g (st (some e4) 2) (at_ 1000060 1024) =
      (.qualified, st (some (at_ 1000060 1024)) 0) := by decide

/-- E2 is dropped by sense and sets the level LOW, through the capture path of slice 0 lane 0. -/
def captured (deskew : BitVec 21) (st : ChanStatus) : State :=
  withChannel 4 (channel4 deskew st)
    { timed 1000070 .set with map := Bank.set (Bank.fill 128 MapEntry.reset) 0 ⟨.take, 4⟩ }

theorem test_edge_by_sense :
    ((ran (.edgeCell ⟨0x10, 0⟩ 0 0 .fall 0 0 false) (captured 2048 .reset)).channels.get 4).status =
      { ChanStatus.reset with level := .low } := by decide +kernel

/-- E7 is qualified: it waits in the Ordering Queue, marked GAP (its table here is NOMINAL: code 63
gives 1016). -/
theorem test_edge_qualified :
    let s := withMark (at_ 1000000 0)
      (captured 40960 { ChanStatus.reset with last := some (at_ 1000029 4048), phase := 2 })
    let t := ran (.edgeCell ⟨0x10, 0⟩ 0 0 .rise (BitVec.ofNat 16 1000070) 63 true) s
    t.queue.entries = [⟨4, .rise, at_ 1000060 1016, ⟨true, true, false⟩⟩] ∧
    (t.channels.get 4).status.sourceGap = true ∧ t.link.slots = [.free] := by decide +kernel

/-- The reads that end 3.14. -/
theorem test_chan_read :
    let s := captured 40960
      { level := .high, last := some (at_ 1000060 1024), phase := 0, suppressed := 2
        orderFaults := 1, sourceGap := true }
    answer (.chanRead cmd 4 .state) s = some (.done, [0, 0, 1, 1]) ∧
    answer (.chanRead cmd 4 .counts) s = some (.done, [2, 1]) ∧
    answer (.chanRead cmd 4 .last) s = some (.done, [1, 1000060]) ∧
    answer (.chanRead cmd 4 .lastFine) s = some (.done, [1, 1024, 17020]) ∧
    ((ran (.chanRead cmd 4 .state) s).channels.get 4).status.sourceGap = false ∧
    ((ran (.chanRead cmd 4 .counts) s).channels.get 4).status.suppressed = 0 := by decide +kernel

theorem test_chan_write :
    answer (.chanWrite cmd 4 (.deskew (-1048576))) base = some (.done, [4, 4, 1048576]) ∧
    answer (.chanWrite cmd 4 (.deskew 1048576)) base = some (.range, [4, 4, 0]) ∧
    answer (.chanWrite cmd 4 (.prescale 65536)) base = some (.done, [4, 6, 65536]) ∧
    answer (.chanWrite cmd 4 (.prescale 65537)) base = some (.range, [4, 6, 1]) ∧
    answer (.chanWrite cmd 4 (.sense 3)) base = some (.range, [4, 1, 0]) := by decide +kernel

/-! ## Tables, loads and calibration: the examples of chapters 4, 5 and 12 -/

/-- A LOADED table that rises by 16 from 8, but holds the values of Table 4-2 at 98 to 105. -/
def table2 : Table :=
  { phase := .loaded
    entries :=
      .tabulate fun i =>
        if 98 ≤ i.val ∧ i.val ≤ 105 then
          [1576, 1590, 1602, 1620, 1634, 1650, 1666, 1681].getD (i.val - 98) 0
        else nominalFraction i }

/-- A FULL load of LIN 2 at first index 100. -/
def load2 (words : List Word16) : State :=
  withLoad
    { phase := .full, target := .lin 2, first := 100, count := words.length
      expected := words.length, words := words }
    (base.setTable 2 table2)

theorem test_load_commit_shape :
    answer (.loadCommit cmd) (load2 [1600, 1618, 1636, 1668]) = some (.shape, [104]) ∧
    (ran (.loadCommit cmd) (load2 [1600, 1618, 1636, 1668])).command.load.phase = .full := by
  decide +kernel

theorem test_load_commit_accepted :
    let t := ran (.loadCommit cmd) (load2 [1600, 1618, 1636, 1652, 1668])
    (t.command.replies.map (·.code) = [.accepted] ∧ t.command.load = LoadBuffer.reset) ∧
    (t.tables.get 2).isUpdating = true ∧ (t.tables.get 2).entries.get 101 = 1620 ∧
    (t.tables.get 2).lookup 101 = (1624, true) ∧
    (((t.tables.get 2).updateDone 0).map fun m =>
      [m.get 99, m.get 100, m.get 101, m.get 104, m.get 105]) =
        some [1590, 1600, 1618, 1668, 1681] := by
  decide +kernel

theorem test_table_read :
    answer (.tableRead cmd (.lin 2) 99) (load2 []) = some (.done, [2, 1590, 1602, 1620]) ∧
    answer (.tableRead cmd (.lin 0) 255) base = some (.done, [0, 4088, 0, 0]) := by decide +kernel

/-- The loads of 12.8: LOAD-OPEN, LOAD-DATA with the RANGE of tag 14, CHAN-WRITE's abandon. -/
def load5 (words : List Word16) : State :=
  withLoad { phase := .opened, target := .lin 5, first := 16, count := 8, expected := 8, words := words }
    base

theorem test_load_open :
    (ran (.loadOpen cmd (.lin 5) 16 8) base).command.load = (load5 []).command.load ∧
    answer (.loadOpen cmd .plan 0 22) base = some (.range, []) ∧
    answer (.loadOpen cmd (.lin 5) 193 64) base = some (.range, []) ∧
    answer (.loadOpen cmd (.lin 5) 192 64) base = some (.done, []) ∧
    answer (.loadOpen cmd (.lin 5) 0 1) (load5 []) = some (.busy, []) := by decide +kernel

theorem test_load_data :
    answer (.loadData cmd [1, 2, 3]) (load5 [1, 2, 3, 4, 5, 6]) = some (.range, [2, 8]) ∧
    (ran (.loadData cmd [7, 8, 9]) (load5 [1, 2, 3, 4, 5, 6])).command.load.words =
      [1, 2, 3, 4, 5, 6, 7, 8] ∧
    answer (.loadData cmd [1, 2]) base = some (.sequence, []) := by decide +kernel

theorem test_load_abandoned :
    let t := ran (.chanWrite cmd 5 (.holdoff 10)) (load5 [1, 2, 3, 4, 5, 6])
    t.command.load.phase = .empty ∧
    ((t.command.attns.get 10).flag, (t.command.attns.get 10).detail.map (·.value)) =
      (true, [5, 6, 8]) ∧
    (t.channels.get 5).set.holdoff = 10 := by decide +kernel

theorem test_load_cancel :
    answer (.loadCancel cmd) (load5 [1, 2, 3]) = some (.done, [3]) ∧
    answer (.status cmd .load) (load5 [1, 2, 3]) = some (.done, [1, 5, 16, 8, 3]) := by
  decide +kernel

/-- MAP: a CONFLICT of two entries that claim channel 3, and a commit that takes effect. -/
def loadMap (words : List Word16) : State :=
  withLoad
    { phase := .full, target := .map, first := 0, count := words.length, expected := words.length
      words := words }
    base

theorem test_map_commit :
    answer (.loadCommit cmd) (loadMap [0x13, 0x23]) = some (.conflict, []) ∧
    answer (.loadCommit cmd) (loadMap [0x13, 0x35]) = some (.done, []) ∧
    (ran (.loadCommit cmd) (loadMap [0x13, 0x35])).map.get 0 = ⟨.take, 3⟩ ∧
    (ran (.loadCommit cmd) (loadMap [0x13, 0x35])).map.get 1 = ⟨.pass, 0⟩ := by decide +kernel

/-- PLAN: length 5, WAIT, marker bits 0001, JUMP to 2 is 00000005 8A10; NEXT at step 63 is RANGE. -/
def loadPlan (first : Nat) (words : List Word16) : State :=
  withLoad
    { phase := .full, target := .plan, first := first, count := 1, expected := 3, words := words } base

theorem test_plan_commit :
    (ran (.loadCommit cmd) (loadPlan 7 [0, 5, 0x8A10])).plan.get 7 =
      { length := 5, kind := .wait, markers := 1, action := .jump 2 } ∧
    answer (.loadCommit cmd) (loadPlan 63 [0, 5, 0]) = some (.range, []) ∧
    answer (.loadCommit cmd) (loadPlan 7 [0, 0, 0]) = some (.range, []) ∧
    answer (.loadCommit cmd) (loadPlan 7 [0, 5, 0x0600]) = some (.range, []) := by decide +kernel

/-- The histogram of Table 5-2. -/
def bins510 : Bank Nat 256 :=
  .tabulate fun i =>
    if i.val < 4 then [10, 22, 0, 18].getD i.val 0
    else if i.val < 252 then 16 else [30, 24, 24, 0].getD (i.val - 252) 0

/-- The run of 5.10 with its hits gathered. -/
def run510 (limit : Nat) : State :=
  { base with
    cal :=
      { active := true, table := 6, channel := 6, k := 12, timeout := 10, emptyLimit := limit
        hits := 4096, elapsed := 1027400, outcome := .running, emptyBins := 0, widestBin := 0
        widestCode := 0, bins := bins510 } }

/-- The entries of Table 5-3. -/
theorem test_cal_entries :
    [0, 1, 2, 3, 4, 5, 251, 252, 253, 254, 255].map
      (fun i : Fin 256 => ((run510 2).cal.computedTable.get i).toNat) =
        [5, 21, 32, 41, 58, 74, 4010, 4033, 4060, 4084, 4095] := by decide +kernel

theorem test_cal_completion :
    let t := ran .calCompletion (run510 2)
    (t.cal.outcome = .done ∧ t.cal.emptyBins = 2 ∧ t.cal.widestBin = 30 ∧ t.cal.widestCode = 252) ∧
    ((t.command.attns.get 8).detail.map (·.value) = [2, 6, 2, 30]) ∧
    (t.tables.get 6).isUpdating = true ∧
    (ran .calCompletion (run510 1)).cal.outcome = .failEmpty := by decide +kernel

theorem test_histogram_read :
    answer (.tableRead cmd .histogram 252) (run510 2) = some (.done, [30, 1]) ∧
    answer (.tableRead cmd .histogram 257) (run510 2) = some (.done, [4096, 4]) ∧
    answer (.tableRead cmd .histogram 260) (run510 2) = some (.range, []) := by decide +kernel

theorem test_cal_run :
    answer (.calRun cmd 6 6 11 10 2) base = some (.range, [6, 6, 11]) ∧
    answer (.calRun cmd 6 6 12 10 2) base = some (.state, [6, 6, 12]) ∧
    answer (.calRun cmd 5 5 12 10 2) (run510 2) = some (.busy, [5, 5, 12]) ∧
    answer (.calRun cmd 6 4 12 10 2) (captured 0 .reset) = some (.accepted, [6, 4, 12]) := by
  decide +kernel

theorem test_cal_cancel :
    answer (.calCancel cmd) (run510 2) = some (.done, [4096, 4]) ∧
    answer (.calCancel cmd) base = some (.state, [0]) := by decide +kernel

/-! ## The Ordering Queue: the example of chapter 6 -/

def clean : EdgeMarks := ⟨false, false, false⟩

/-- An edge of a channel, RISE and without marks. -/
def rise (channel : Fin 16) (stamp : Stamp) : Edge := ⟨channel, .rise, stamp, clean⟩

/-- The full queue of 6.10: its first three entries, and 253 later ones. -/
def queue610 : State :=
  { base with
    queue :=
      { entries :=
          [rise 2 (at_ 700100 50), rise 5 (at_ 700100 50), rise 3 (at_ 700104 0)] ++
            List.replicate 253 (rise 1 (at_ 700200 0))
        mark := at_ 700050 0 } }

theorem test_forced_release :
    let t := arrive (rise 9 (at_ 700300 0)) queue610
    t.queue.entries.length = 255 ∧ t.queue.mark = at_ 700100 50 ∧
    t.queue.entries.head? = some (rise 3 (at_ 700104 0)) ∧
    ((t.command.attns.get 3).flag, (t.command.attns.get 3).detail.map (·.value)) = (true, [2]) := by
  decide +kernel

/-- The edge of channel 11 is LATE after that release; before it, it is released alone. -/
theorem test_late_and_alone :
    ((arrive (rise 11 (at_ 700080 0)) (withMark (at_ 700100 50) queue610)).command.attns.get 2).flag =
      true ∧
    (arrive (rise 11 (at_ 700080 0)) queue610).queue.entries.length = 256 ∧
    (arrive (rise 11 (at_ 700080 0)) queue610).queue.mark = at_ 700080 0 := by decide +kernel

theorem test_queue_order :
    beforeInQueue (rise 2 5) (rise 3 5) = true ∧ beforeInQueue (rise 3 5) (rise 3 5) = false ∧
    beforeInQueue (rise 9 4) (rise 3 5) = true ∧
    beforeInQueue (rise 9 (at_ (2 ^ 47 - 1) 0)) (rise 3 5) = true := by decide

/-! ## Slots: the example of 7.14 -/

/-- Slot 3 of 7.14 in a state, with a run. -/
def slot714 (state : SlotState) (run : Run) : Slot :=
  { config :=
      { SlotConfig.reset with
        endpointA := ⟨2, .rise⟩, length := 250, repeats := 0 }
    state := state, run := run, seq := 41, retained := none }

/-- B plus an offset in fu. -/
def b714 (offset : Nat) : Stamp := at_ 1000000 offset

/-- The run with gate 0 in hand. -/
def gate0 : Run :=
  { Run.empty with
    watching := true, prescale := 1, tOpen := some (b714 0), tClose := some (b714 1024000) }

theorem test_arm :
    let s := withSlot 3 (slot714 .idle .empty) (withMark (b714 0) base)
    (ran (.arm cmd 3) s).slots.get 3 = slot714 .opening gate0 ∧
    answer (.arm cmd 3) s = some (.done, []) ∧
    answer (.arm cmd 3) (withSlot 3 (slot714 .opening gate0) base) = some (.state, []) := by
  decide +kernel

theorem test_first_edge :
    (slot714 .opening gate0).matchEndpoints 3 (rise 2 (b714 100000)) =
      (slot714 .rateCounting
        { gate0 with t0 := some (b714 100000), lastA := some (b714 100000) }, []) := by decide

/-- W reaches the close: CLOSING, with gate 1 pending. -/
theorem test_gate_close :
    let run := { gate0 with t0 := some (b714 100000), lastA := some (b714 1021600), n := 3 }
    (slot714 .rateCounting run).takeBoundary 3 (.fill 64 .reset) .gateClose (b714 1024000) =
      (slot714 .closing
        { run with
          pendingGate := some ⟨b714 1024000, some (b714 2048000), 1, clean⟩ }, []) := by decide +kernel

/-- e4 closes gate 0: T = 1,228,800 fu, N = 4, sequence number 41; gate 1 goes on with e4 as t0. -/
theorem test_closing_edge :
    let run :=
      { gate0 with
        t0 := some (b714 100000), lastA := some (b714 1021600), n := 3
        pendingGate := some ⟨b714 1024000, some (b714 2048000), 1, clean⟩ }
    let o := (slot714 .closing run).matchEndpoints 3 (rise 2 (b714 1328800))
    o.2.map (·.body) =
      [.rate 1 4 (b714 100000) (b714 1328800) (frequency 4 1228800).1 (meanPeriod 4 1228800)] ∧
    o.2.map (fun r => (r.seq, r.gateIndex, r.flags)) = [(41, 0, RunFlags.clear)] ∧
    (o.1.state = .rateCounting ∧ o.1.run.t0 = some (b714 1328800) ∧ o.1.run.n = 0 ∧
      o.1.run.gateIndex = 1 ∧ o.1.seq = 42) := by decide +kernel

/-- STOP in COUNTING at W = B + 1,699,840: CLOSING at once. -/
theorem test_stop :
    let run :=
      { gate0 with
        gateIndex := 1, tOpen := some (b714 1024000), tClose := some (b714 2048000)
        t0 := some (b714 1328800), lastA := some (b714 1636000), n := 1 }
    let s := withSlot 3 (slot714 .rateCounting run) (withMark (b714 1699840) base)
    let x := (ran (.stop cmd 3) s).slots.get 3
    (x.state = .closing ∧ x.run.tClose = some (b714 1699840) ∧ x.run.pendingGate = none) ∧
    x.run.flags.stopped = true ∧ answer (.stop cmd 3) base = some (.state, []) := by decide +kernel

/-- A second STOP acts as a close-timeout expiry: CLOSE-LATE on the last A edge. -/
theorem test_second_stop :
    let run :=
      { gate0 with
        gateIndex := 1, tClose := some (b714 1699840), t0 := some (b714 1328800)
        lastA := some (b714 1636000), n := 1, lastGate := true
        flags := { RunFlags.clear with stopped := true } }
    let s := withSlot 3 (slot714 .closing run) (withMark (b714 1699840) base)
    let x := (ran (.stop cmd 3) s).slots.get 3
    x.state = .idle ∧ x.retained.map (·.flags) =
      some { RunFlags.clear with stopped := true, closeLate := true } := by decide +kernel

theorem test_arm_at :
    answer (.armAt cmd 3 1000000) (withMark (b714 0) base) = some (.tooLate, []) ∧
    answer (.armAt cmd 3 1000001) (withMark (b714 0) base) = some (.done, []) ∧
    ((ran (.armAt cmd 3 1000001) (withMark (b714 0) base)).slots.get 3).run.armAt =
      some (at_ 1000001 0) ∧
    answer (.armAt cmd 3 (2 ^ 47)) base = some (.range, []) := by decide +kernel

/-- A TOTAL slot that counts, or is HELD. -/
def total (state : SlotState) : Slot :=
  { Slot.reset with
    config := { SlotConfig.reset with kind := .total, gate := .openEnded }
    state := state
    run := { Run.empty with watching := true, prescale := 1, tOpen := some (at_ 5 0), countA := 7 } }

theorem test_hold_and_resume :
    ((ran (.hold cmd 0) (withSlot 0 (total .totalCounting) base)).slots.get 0).state = .held ∧
    ((ran (.resume cmd 0) (withSlot 0 (total .held) base)).slots.get 0).state = .totalCounting ∧
    answer (.resume cmd 0) (withSlot 0 (total .totalCounting) base) = some (.state, []) ∧
    answer (.hold cmd 1) base = some (.wrongKind, []) := by decide +kernel

theorem test_slot_set_and_get :
    answer (.slotSet cmd 2 (.gateLength 250)) base = some (.done, [2, 5, 250]) ∧
    ((ran (.slotSet cmd 2 (.gateLength 250)) base).slots.get 2).config.length = 250 ∧
    answer (.slotSet cmd 2 (.gateLength 0)) base = some (.range, [2, 5, 250000]) ∧
    answer (.slotSet cmd 0 (.kind 1)) (withSlot 0 (total .held) base) = some (.state, [0, 0, 2]) ∧
    answer (.slotGet cmd 2 .gating) base = some (.done, [0, 250000]) ∧
    answer (.slotGet cmd 0 .state) (withSlot 0 (total .held) base) =
      some (.done, [8, 0, 0, 0, 0, 0, 0, 0, 0, 0, 0, 0, 0, 0, 0, 0]) := by decide +kernel

/-- The rows of the boundaries, each on a slot that W has reached. -/
theorem test_boundary_rows :
    ((ran (.armPointReached 0) (withMark (at_ 9 0) (withSlot 0
      { Slot.reset with state := .armed, run := { Run.empty with armAt := some (at_ 9 0) } }
      base))).slots.get 0).state = .opening ∧
    ((ran (.gateCloseReached 0) (withMark (b714 1024000) (withSlot 0
      (slot714 .rateCounting { gate0 with t0 := some (b714 1) }) base))).slots.get 0).state = .closing ∧
    ((ran (.closeTimeoutExpiry 0) (withMark (at_ (1000250 + 2 ^ 25) 0) (withSlot 0
      (slot714 .closing { gate0 with lastGate := true }) base))).slots.get 0).state = .idle ∧
    ((ran (.planStepEnd 0) (withMark (at_ 9 0) (withSlot 0
      { Slot.reset with
        config := { SlotConfig.reset with gate := .plan 0 }
        state := .armed
        run :=
          { Run.empty with
            planStep := some 0, stepRecord := some { PlanStep.reset with kind := .wait }
            stepEnd := some (at_ 9 0) } }
      base))).slots.get 0).state = .idle := by decide +kernel

/-! ## Arithmetic and records: the examples of chapter 8 -/

/-- The cases of 8.4. -/
theorem test_frequency_and_period :
    frequency 10000 1024000000 = (10000000000, false) ∧ meanPeriod 10000 1024000000 = 26214400 ∧
    frequency 10000 1024000003 = (9999999971, false) ∧ meanPeriod 10000 1024000003 = 26214400 ∧
    frequency 1 8388608 = (122070313, false) ∧ meanPeriod 1 8388608 = 2147483648 := by decide

/-- The means of 8.6. -/
theorem test_interval_mean :
    intervalMean 8192003 4 = 2048001 ∧ intervalMean 4096003 2 = 2048002 ∧ intervalMean 0 0 = 0 := by
  decide

/-- The last pair of 8.6: min, max and sum. -/
theorem test_interval_sample :
    let x : Slot :=
      { Slot.reset with
        run :=
          { Run.empty with
            count := 3, min := some 2047990, max := some 2048003, sum := 6143993 } }
    let r := (x.recordSample ⟨at_ 5 0, clean⟩ (rise 1 (at_ 5 2048010))).run
    (r.count, r.min, r.max, r.sum) = (4, some 2047990, some 2048010, 8192003) := by decide

/-- The flags word and the bytes of a TOTAL record, segment 0 (Tables 11-4, 11-5): sequence 0x0102, index 3,
kind TOTAL with VALUES and STOPPED 0x8C00. -/
theorem test_record_segment :
    let r : Record :=
      { slot := 0, gateIndex := 3, seq := 0x0102, values := true
        flags := { RunFlags.clear with stopped := true }
        body := .total 0x0A0B0C0D0E 1 (-1) 0 0 }
    r.segment 0 = 0x0102000000038C ∧ r.segment 1 = 0x000A0B0C0D0E00 ∧
    r.segment 2 = 0x00000001FFFFFF ∧ segmentDescriptor 5 6 true = 0xBA := by decide +kernel

/-! ## The Result Queue: the example of 9.8 -/

/-- A Result Queue of `n` stamp records behind an INTERVAL record of which five cells are sent. -/
def queue98 (n gaps : Nat) : State :=
  { base with
    results :=
      { records :=
          .result
              { slot := 1, gateIndex := 0, seq := 0, values := true, flags := .clear
                body := .interval 0 0 0 0 0 0 } ::
            List.replicate n (.stamp 4 .rise clean 0)
        sent := 5, gaps := gaps, gapLimit := false, threshold := 384 } }

/-- Slot 2's RATE record with a sequence number. -/
def rate98 (seq : BitVec 16) : QueueRecord :=
  .result
    { slot := 2, gateIndex := 0, seq := seq, values := true, flags := .clear, body := .rate 1 1 0 1 0 0 }

/-- Events 1, 2 and 5. -/
theorem test_offer_drops_and_gaps :
    (offer (rate98 17) (queue98 501 0)).results.gaps = 1 ∧
    (offer (.stamp 4 .rise clean 0) (queue98 501 1)).results.records.drop 502 =
      [.gap 1 false, .stamp 4 .rise clean 0] ∧
    (offer (.stamp 4 .rise clean 0) (queue98 505 1)).results.gaps = 2 := by decide +kernel

/-- Event 8: occupancy 505 and two drops pending. -/
theorem test_offer_gap_then_drop :
    let s : State :=
      { base with
        results :=
          { records := List.replicate 505 (.stamp 4 .rise clean 0), sent := 0, gaps := 2
            gapLimit := false, threshold := 384 } }
    (offer (rate98 18) s).results.records.getLast? = some (.gap 2 false) ∧
    (offer (rate98 18) s).results.gaps = 1 ∧
    (offer (rate98 18) s).results.occupancy = 506 := by decide +kernel

theorem test_queue_set :
    answer (.queueSet cmd 512) (queue98 501 0) = some (.done, [512, 508, 0]) ∧
    answer (.queueSet cmd 513) base = some (.range, [384, 0, 0]) := by decide +kernel

/-! ## Markers: the tables of 10.7 -/

/-- MK1 and MK2 of 10.7. -/
def mk1 (request : Bool) (pin : PinLevel) (last : Nat) : Marker :=
  { Marker.reset with
    source := .divider 5, width := 20, request := request, pin := pin, lastTransition := last }
def mk2 (request : Bool) (pin : PinLevel) (last : Nat) (pulse : Option Nat) : Marker :=
  { Marker.reset with
    source := .done 3, width := 8, request := request, pin := pin, lastTransition := last
    pulseEnd := pulse }

/-- Table 10-2 at 108, 120 and 160. -/
theorem test_divider_marker :
    (mk1 true .high 100).ask 108 false = mk1 false .high 100 ∧
    (mk1 false .high 100).act 120 = mk1 false .low 120 ∧
    (mk1 true .high 140).ask 160 false = mk1 false .low 160 := by decide

/-- Table 10-3 at 204, 212, 215, 220 and 223. -/
theorem test_done_marker :
    (mk2 true .high 200 (some 208)).pulse 204 = mk2 true .high 200 (some 212) ∧
    (mk2 true .high 200 (some 212)).endPulse 212 = mk2 false .low 212 none ∧
    (mk2 false .low 212 none).pulse 215 = mk2 true .low 212 (some 223) ∧
    (mk2 true .low 212 (some 223)).act 220 = mk2 true .high 220 (some 223) ∧
    (mk2 true .high 220 (some 223)).endPulse 223 = mk2 false .high 220 none := by decide

theorem test_marker_rows :
    (ran (.markerHoldExpiry 1) { withMarker 1 (mk1 false .high 100) base with markerTime := 120 }).markers.get
      1 = mk1 false .low 120 ∧
    (ran (.markerHoldExpiry 1) { withMarker 1 (mk1 false .high 100) base with markerTime := 119 }).markers.get
      1 = mk1 false .high 100 ∧
    (ran (.donePulseEnd 2)
      { withMarker 2 (mk2 true .high 200 (some 212)) base with markerTime := 212 }).markers.get 2 =
      mk2 false .low 212 none := by decide +kernel

/-- The period of marker time 120: MK1's fall at 120, which no row took, shows at that period's end (R147,
R153). A pulse of width 0 that rises in a period shows at its end and is over at the next one's (R152). -/
theorem test_markers_at_the_period_end :
    let fall := ran .timebaseAdvance { withMarker 1 (mk1 false .high 100) base with markerTime := 120 }
    let pulse := ran .timebaseAdvance
      { withMarker 1 ({ Marker.reset with source := .done 3 }.pulse 50) base with markerTime := 50 }
    (fall.markers.get 1 = mk1 false .low 120 ∧ fall.markerTime = 121) ∧
    ((pulse.markers.get 1).shown, (pulse.markers.get 1).pulseEnd) = (.high, some 51) ∧
    ((ran .timebaseAdvance pulse).markers.get 1).shown = .low := by decide +kernel

/-- A marker HIGH since 100 under w = 20, and a node reset at 110 (R146, R147): the pin falls at 120, a source
that still wants LOW changes nothing, and a transition requested later, or a second reset, is made at once. -/
theorem test_node_reset_under_a_hold :
    let m := (mk1 true .high 100).nodeReset 110
    let s : State := { withMarker 1 m base with markerTime := 112 }
    (m.pin = .high ∧ m.act 119 = m) ∧ ((m.act 120).pin, (m.act 120).lastTransition) = (.low, 120) ∧
    (m.setSource s .off).pin = .high ∧ ((m.setInvert s true).setInvert s false).pin = .low ∧
    (m.nodeReset 112).pin = .low := by decide +kernel

theorem test_marker_commands :
    answer (.markSetSource cmd 1 (.timebase 2)) base = some (.done, [7, 2, 0, 0, 1, 0]) ∧
    answer (.markSetSource cmd 1 (.timebase 1)) base = some (.range, [0, 0, 0, 1, 1]) ∧
    answer (.markSetInvert cmd 1 1) base = some (.done, [0, 1, 0, 1, 0]) ∧
    answer (.markSetWidth cmd 1 65535) base = some (.done, [0, 0, 65535, 1, 1]) ∧
    answer (.markLevel cmd 1 0) base = some (.done, [0, 0, 0, 0, 1]) ∧
    answer (.markLevel cmd 4 0) base = some (.range, []) := by decide +kernel

/-! ## Link and node -/

theorem test_hunt_and_lock :
    (ran (.huntCellStart (List.replicate 20 0b11111)) State.reset).link.align = .confirming ∧
    (ran .confirmingFillCell
      { base with link := { Link.reset with align := .confirming, goodRun := 3 } }).link.align =
      .locked ∧
    (ran .confirmingOtherCell
      { base with link := { Link.reset with align := .confirming, goodRun := 3 } }).link.align =
      .hunt := by decide +kernel

theorem test_bad_and_silent :
    (ran .badCell { base with link := { base.link with badRun := 3 } }).link.align = .hunt ∧
    (ran .badCell base).link.errors = 1 ∧ (ran .linkSilentCellTime base).link.badRun = 1 ∧
    (ran .fillCell { base with link := { base.link with badRun := 3 } }).link.badRun = 0 ∧
    (ran (.relayCell ⟨0x41, 9⟩) base).link.slots = [.relay ⟨0x41, 9⟩] := by decide +kernel

/-- The NOTICE of 12.8 leaves first, with node 2: LOAD (10), detail LIN 5, 6 words, CHAN-WRITE (8). -/
theorem test_notice_cell :
    let s := raise .load [num 4 5, num 7 6, num 6 8]
      { base with
        node := { address := 2, state := .active }
        link := { base.link with slots := [.free] }
        command :=
          { base.command with
            attns := base.command.attns.map fun a => { a with notice := true }
            replies := [⟨8, .done, []⟩] } }
    (ran .transmitSlotDue s).link.out = .data ⟨0x72, 0x0A50C40000000000⟩ ∧
    (ran .transmitSlotDue s).command.notices = [] ∧
    (ran .transmitSlotDue s).command.replies.length = 1 := by decide +kernel

/-- A reply of two cells: the more mark, then the continuation mark (R161, R162). -/
theorem test_reply_cells :
    let r : Reply := ⟨5, .range, [num 48 0xA1A2A3A4A5A6, num 8 0xB1]⟩
    replyCell base.node r 0 = ⟨0x41, 0x0584A1A2A3A4A5A6⟩ ∧
    replyCell base.node r 1 = ⟨0x41, 0x0544B10000000000⟩ := by decide +kernel

theorem test_name_and_mode :
    (ran (.name ⟨0x30, 0⟩ 1) { base with node := { address := 0, state := .unnamed } }).node =
      { address := 1, state := .active } ∧
    answer (.name cmd 15) base = some (.range, [1, 1]) ∧
    answer (.mode cmd 2) base = some (.done, [2, 1]) ∧
    answer (.mode cmd 0) base = some (.range, [1, 1]) := by decide +kernel

theorem test_ident_and_status :
    answer (.ident cmd 0) base = some (.done, [0x0E16, 1]) ∧
    answer (.ident cmd 3) base = some (.range, []) ∧
    answer (.status cmd .node) base = some (.done, [1, 1, 2, 0, 1, 1, 1, 1]) ∧
    answer (.unknownCommand cmd 27) base = some (.unknown, []) := by decide +kernel

theorem test_clear_and_attn_set :
    ((ran (.clear cmd 0x800 false) (raise .link [num 1 1] base)).command.attns.get 0).flag = false ∧
    ((ran (.clear cmd 0x7FF false) (raise .link [num 1 1] base)).command.attns.get 0).flag = true ∧
    ((ran (.attnSet cmd 0xFFF 0x012 false) base).command.attns.get 10).notice = true ∧
    ((ran (.attnSet cmd 0xFFF 0x012 false) base).command.attns.get 9).notice = false := by
  decide +kernel

theorem test_resets :
    (ran .powerOnReset base).node = { address := 0, state := .unnamed } ∧
    (ran .powerOnReset base).held = true ∧
    (ran .resetRelease (ran .powerOnReset base)).held = false ∧
    (ran (.nodeReset cmd) base).node = { address := 1, state := .active } ∧
    (ran (.nodeReset cmd) base).command.replies = [⟨0, .done, []⟩] := by decide +kernel

/-- R164: a bad cell behind the reset is the fourth of its run, and the count then stands at 1. -/
theorem test_node_reset_keeps_the_bad_cell_run :
    let s (run : Nat) : Link :=
      (ran .badCell (ran (.nodeReset cmd)
        { base with link := { base.link with badRun := run, errors := 9 } })).link
    ((s 3).align = .hunt ∧ (s 3).errors = 1) ∧ ((s 2).align = .locked ∧ (s 2).badRun = 3) := by
  decide +kernel

/-- The ends of an update and of a calibration in their last period. -/
theorem test_update_end_and_timeout :
    ((ran (.tableUpdateEnd 2) (base.setTable 2
      { phase := .updating 499 table2.entries, entries := Table.reset.entries })).tables.get 2).phase =
      .loaded ∧
    ((ran (.tableUpdateEnd 2) (base.setTable 2
      { phase := .updating 498 table2.entries, entries := Table.reset.entries })).tables.get
        2).isUpdating = true ∧
    (ran .calTimeout
      { base with cal := { (run510 2).cal with elapsed := 2499999 } }).cal.outcome = .failTimeout ∧
    (ran .calTimeout
      { base with cal := { (run510 2).cal with elapsed := 2499998 } }).cal.outcome = .running := by
  decide +kernel

theorem test_step_takes_the_front :
    (match step { base with pending := [.fillCell, .badCell] } with
      | .next t => t.pending
      | _ => []) = [.badCell] := by decide +kernel

/-! ## For each statement with hypotheses, states and operands that meet them

Each clause of a statement has its own state; where a clause ranges over numbers, a boundary of the range. -/

def inAlign (a : Machine.Alignment) (good bad errors : Nat) : State :=
  { base with
    link := { base.link with align := a, goodRun := good, badRun := bad, errors := errors } }
def due (slots : List TxSlot) : State := { base with link := { base.link with slots := slots } }
def withCommand (f : CommandUnit → CommandUnit) (s : State) : State := { s with command := f s.command }
def unnamed : State := { base with node := { address := 0, state := .unnamed } }

theorem witness_StepTakesFrontCommand :
    ({ base with pending := [.fillCell, .badCell] } : State).pending = .fillCell :: [.badCell] ∧
    base.pending = [] := by decide +kernel

/-- A pin that is HIGH with one period of its hold to run, one whose hold has just run out, and a LOW one. -/
theorem witness_NodeResetKeepsOnlyWhatR177Lists :
    (Takes base cmd ∧ (base.markers.get 0).pin = .low) ∧
    (let s (t : Nat) : State := { withMarker 0 (mk1 true .high 100) base with markerTime := t };
      Takes (s 119) cmd ∧ ((s 119).markers.get 0).pin = .high ∧
      (s 119).markerTime < ((s 119).markers.get 0).lastTransition + ((s 119).markers.get 0).width ∧
      ((s 120).markers.get 0).lastTransition + ((s 120).markers.get 0).width ≤ (s 120).markerTime) ∧
    (let s := inAlign .locked 4 3 7; Takes s cmd ∧ s.link.badRun = 3) := by decide +kernel

theorem witness_AlignmentIsFoundByR156 :
    ((inAlign .hunt 0 0 0).held = false ∧ (inAlign .hunt 0 0 0).link.align = .hunt) ∧
    ((inAlign .confirming 2 0 0).link.align = .confirming ∧ (inAlign .confirming 2 0 0).link.goodRun < 3) ∧
    (inAlign .confirming 3 0 0).link.goodRun = 3 := by decide +kernel

theorem witness_BadCellsInLocked :
    (Receiving (inAlign .locked 4 2 65535) ∧ (inAlign .locked 4 2 65535).link.badRun < 3) ∧
    (Receiving (inAlign .locked 4 3 65534) ∧ (inAlign .locked 4 3 65534).link.badRun = 3) := by
  decide +kernel

theorem witness_FillAndRelayedCells :
    (Receiving base ∧ base.link.slots = []) ∧
    ((due [.relay cmd]).held = false ∧ (due [.relay cmd]).link.slots = .relay cmd :: []) ∧
    ({ base with held := true } : State).held = true := by decide +kernel

/-- A muted part with a notice, one with a notice, one with a reply, with a record, with nothing. -/
def arbiter (mute : Bool) (notices : List AttnKind) (replies : List Reply) (n : Nat) : State :=
  { withCommand (fun u => { u with mute := mute, notices := notices, replies := replies })
      (due [.free]) with
    results := { ResultQueue.reset with records := List.replicate n (.stamp 4 .rise clean 0) } }

theorem witness_ArbiterOrderOfR160 :
    (FreeSlotDue (arbiter false [.load, .gap] [] 1) [] ∧
      (arbiter false [.load, .gap] [] 1).command.mute = false ∧
      (arbiter false [.load, .gap] [] 1).command.notices = .load :: [.gap]) ∧
    ((arbiter true [.load] [⟨1, .done, []⟩] 1).command.mute = true ∧
      (arbiter true [.load] [⟨1, .done, []⟩] 1).command.replies = ⟨1, .done, []⟩ :: []) ∧
    ((arbiter false [] [] 1).command.notices = [] ∧ (arbiter false [] [] 1).command.replies = [] ∧
      (arbiter false [] [] 1).results.records = .stamp 4 .rise clean 0 :: []) ∧
    (FreeSlotDue (arbiter false [] [] 0) [] ∧ (arbiter false [] [] 0).results.records = []) ∧
    FreeSlotDue (inAlign .hunt 0 0 0) [] := by
  refine ⟨⟨⟨rfl, .inl rfl⟩, rfl, rfl⟩, ⟨rfl, rfl⟩, ⟨rfl, rfl, rfl⟩, ⟨⟨rfl, .inl rfl⟩, rfl⟩,
    ⟨rfl, .inr ⟨rfl, rfl, ?_⟩⟩⟩
  decide

/-- Fields that fill their room, replies of one cell and of two, and the last cells of the records. -/
theorem witness_ArbiterOrderOfR160_layouts :
    (packedWidth [num 8 1, num 48 5] ≤ 56 ∧ packedWidth [num 48 1] ≤ 48 ∧
      48 < packedWidth [num 48 1, num 1 1]) ∧
    5 < (RecordBody.total 0 0 0 0 0).cells ∧ 6 < (RecordBody.rate 0 0 0 0 0 0).cells ∧
    65535 ≤ 65535 := by decide

/-- Twenty groups, a symbol that begins no CELL-START, and lines of 104 and of 105 symbols. -/
theorem witness_LineCodeRoundTrip :
    (List.replicate 20 fillMark).length = 20 ∧ judgeGroups (cellGroups cmd) = .good cmd ∧
    (104 ≤ (fillLine.drop 1).length ∧
      (false :: fillLine.drop 1).take 5 ≠ [true, true, false, false, false]) ∧
    (fillLine.drop 1).length < 105 ∧ nextRow base.link.align (fillLine.drop 1) = none ∧
    nextRow base.link.align fillLine = some (.fillCell, []) ∧
    exec .fillCell base = .next (ran .fillCell base) := by
  refine ⟨?_, ?_, ?_, ?_, ?_, ?_, rfl⟩ <;> decide +kernel

/-- Cells of each kind, command cells from the first code to the last, and the ends of the operands on which
a command's row depends. -/
theorem witness_EveryCellIsReadAsItsRow :
    (let top : Cell := ⟨0x1F, 0xFFFFFFFFFF000000⟩;
      top.header.toNat / 16 = 1 ∧ (31 : Fin 32).val = top.payload.toNat / 2 ^ 59 ∧
      (3 : Fin 4).val = top.payload.toNat / 2 ^ 57 % 4 ∧
      (255 : Fin 256).val = top.payload.toNat / 2 ^ 24 % 256) ∧
    ((⟨0x2F, 0⟩ : Cell).header.toNat / 16 = 2 ∧ (⟨0x4F, 0⟩ : Cell).header.toNat / 16 = 4 ∧
      (⟨0x0F, 0⟩ : Cell).header.toNat / 16 = 0) ∧
    (∀ n ∈ List.range 64, (codeCell n).header.toNat / 16 = 3 ∧
      (codeCell n).payload.toNat / 2 ^ 48 % 64 = n) ∧
    -- operands at bits 0 to 3 of the arguments, the load and read targets, and at bits 4 to 6, the items
    (∀ v ∈ [0, 7, 8, 9, 10, 15], (⟨0x31, BitVec.ofNat 64 (v * 2 ^ 44)⟩ : Cell).payload.toNat /
      2 ^ (48 - 0 - 4) % 2 ^ 4 = v) ∧
    (∀ v ∈ [0, 5, 6, 7], (⟨0x31, BitVec.ofNat 64 (v * 2 ^ 41)⟩ : Cell).payload.toNat /
      2 ^ (48 - 4 - 3) % 2 ^ 3 = v) := by decide +kernel

theorem witness_BroadcastActsAsAddressed :
    ((Instr.mode toAll 2).command? = some (1, toAll) ∧ 1 ≠ 0 ∧ Receiving base ∧ cellNode toAll = 15 ∧
      Takes base cmd) ∧
    (let s := withReplies 8 base;
      Receiving s ∧ s.command.load.phase ≠ .opened ∧ 8 ≤ s.command.replies.length ∧
      s.node.state ≠ .unnamed ∧ (s.slots.get 0).state = .idle) := by decide +kernel

theorem witness_FullReplyQueueDiscardsCommands :
    (Instr.name cmd 2).command? = some (0, cmd) ∧ Receiving (withReplies 8 base) ∧
    Addresses (withReplies 8 base) cmd ∧ 8 ≤ (withReplies 8 base).command.replies.length := by
  decide +kernel

theorem witness_NodeSound : NodeSound base.node ∧ NodeSound unnamed.node :=
  ⟨⟨by decide, by decide⟩, rfl⟩

theorem witness_CellsThatThePartDoesNotTake :
    ((Instr.nodeReset ⟨0x32, 0⟩).command? = some (3, ⟨0x32, 0⟩) ∧ Receiving base ∧
      ¬ Addresses base ⟨0x32, 0⟩ ∧ cellNode ⟨0x32, 0⟩ ≠ 15) ∧
    (¬ Addresses base ⟨0x30, 0⟩ ∧ cellNode ⟨0x30, 0⟩ ≠ 15) ∧
    ((Instr.epochCell ⟨0x20, 0⟩ 0).cell? = some ⟨0x20, 0⟩ ∧
      (inAlign .hunt 0 0 0).link.align = .hunt ∧ ({ base with held := true } : State).held = true ∧
      ((inAlign .confirming 0 0 0).held = false ∧
        (inAlign .confirming 0 0 0).link.align = .confirming)) := by
  decide +kernel

theorem witness_OtherCommandsAbandonAnOpenLoad :
    (Instr.queueSet cmd 1).command? = some (26, cmd) ∧ Receiving (load5 [1]) ∧
    (load5 [1]).command.load.phase = .opened ∧
    (Addresses (load5 [1]) cmd ∧ (load5 [1]).command.replies.length < 8) ∧ cellNode toAll = 15 ∧
    26 ∉ [3, 4, 10, 11, 12, 13] := by decide +kernel

/-- An addressed command that the part takes with no load OPEN: the premise of most command
statements. -/
theorem witness_TakesQuietly :
    TakesQuietly base cmd ∧ TakesQuietly (withReplies 7 base) cmd ∧
    TakesQuietly (load2 [1]) cmd ∧ TakesQuietly unnamed ⟨0x30, 0⟩ := by decide +kernel

theorem witness_NameAndModeSetTheNode :
    (TakesQuietly unnamed ⟨0x30, 0⟩ ∧ unnamed.node.state = .unnamed) ∧
    (∀ a ∈ [1, 14], 1 ≤ a ∧ a ≤ 14) ∧ (∀ a ∈ [0, 15], a = 0 ∨ 15 ≤ a) ∧
    (∀ m ∈ [0, 3], m ≠ 1 ∧ m ≠ 2) ∧
    (Receiving base ∧ cellNode toAll = 15 ∧ base.command.load.phase ≠ .opened) ∧
    (TakesQuietly base cmd ∧ base.node.state ≠ .unnamed) := by decide +kernel

theorem witness_IdentAndStatusReport : TakesQuietly base cmd ∧ Takes (load5 []) cmd := by
  decide +kernel

theorem witness_ClearAndAttnSet :
    TakesQuietly base cmd ∧ (0x800 : BitVec 12).getMsbD 0 = true ∧ (0x001 : BitVec 12).getMsbD 11 = true := by
  decide +kernel

theorem witness_RaiseActsByItsEnable :
    ((withCommand (fun u => { u with attns := u.attns.map fun a => { a with enable := false } })
      base).command.attns.get AttnKind.gap.code).enable = false ∧
    (base.command.attns.get AttnKind.gap.code).enable = true := by decide +kernel

theorem witness_UnknownCodesAreAnsweredUnknown :
    (27 ≤ 27 ∧ 27 ≤ 63 ∧ 27 ≤ 63 ∧ 63 ≤ 63) ∧ TakesQuietly base cmd := by decide +kernel

/-- A calibration that goes on and none; the queue of 6.10 at a period's end with W behind the new frontier,
whose first two entries are released, and a queue that lies past the frontier with W already there. -/
theorem witness_PeriodEndAdvancesCountAndFrontier :
    (base.held = false ∧ base.cal.active = false ∧ (run510 2).cal.active = true ∧
      (ran .timebaseAdvance (run510 2)).cal.active = true) ∧
    (let s : State := { queue610 with timebase := (timed (700100 + 8192) .set).timebase };
      (∀ e ∈ s.queue.entries, later e.stamp s.queue.mark = true) ∧
      later (at_ 700101 0) s.queue.mark = true ∧
      (ran .timebaseAdvance s).timebase.frontier = at_ 700101 0 ∧
      (ran .timebaseAdvance s).queue.entries.length = 254 ∧
      (ran .timebaseAdvance s).queue.mark = at_ 700101 0) ∧
    (∀ e ∈ queue610.queue.entries, later e.stamp (at_ 700050 0) = true) ∧
    later (at_ 700050 0) queue610.queue.mark = false := by decide +kernel

/-- R130: what the EPOCH-STEP record of each kind carries, P being 1. -/
theorem test_epoch_step_records :
    let body (k : SlotKind) : Option RecordBody :=
      let x : Slot :=
        { total .totalCounting with config := { SlotConfig.reset with kind := k } }
      (x.epochEnd 3).2.head?.map (·.body)
    body .rate = some (.rate 1 0 0 0 0 0) ∧ body .interval = some (.interval 0 0 0 0 0 0) ∧
    body .total = some (.total 0 0 0 0 0) := by decide +kernel

/-- Case 4 of 8.4, a T of 0 taken as 2^58 − 1 (R119), and an F held at its limit (R120). -/
theorem test_rate_record :
    let r (n p : Nat) (t1 : Stamp) : Record :=
      let run := { gate0 with t0 := some 0, prescale := p }
      rateRecord 0 (slot714 .closing run) n t1 RunFlags.clear
    ((r 1 1 8388608).body = .rate 1 1 0 8388608 122070313 2147483648 ∧
      (r 1 1 8388608).flags.saturated = false) ∧
    (r 1 1 0).flags.saturated = true ∧
    ((r 1 65536 1).body = .rate 65536 1 0 1 (2 ^ 64 - 1) 0 ∧ (r 1 65536 1).flags.saturated = true) := by
  decide +kernel

/-- UNSET with any target; SET with a target two away on either side, a slot that runs and one that is IDLE,
the enable of EPOCH on, and a TIMEBASE marker. -/
theorem witness_EpochCellsLoadOrStepTheCount :
    (Receiving (timed 5 .unset) ∧ (timed 5 .unset).timebase.epoch = .unset) ∧
    (let far (e : Coarse) : Prop :=
        ¬ (-1 ≤ coarseDiff (e + (timed 20 .set).timebase.trim.setWidth 47)
            (timed 20 .set).timebase.count ∧
          coarseDiff (e + (timed 20 .set).timebase.trim.setWidth 47)
            (timed 20 .set).timebase.count ≤ 1);
      Receiving (timed 20 .set) ∧ (timed 20 .set).timebase.epoch = .set ∧ far 6 ∧ far 10) ∧
    -- a slot of each kind that ends, the index inside its limit and at it
    (∀ k ∈ [SlotKind.rate, .interval, .total], ∀ n ∈ [0, 2 ^ 32 - 2, 2 ^ 32 - 1],
      let x : Slot :=
        { Slot.reset with
          config := { SlotConfig.reset with kind := k }, state := .armed
          run := { Run.empty with gateIndex := n } };
      x.config.kind = k ∧ x.state ≠ .idle ∧ x.run.gateIndex = n) ∧
    (((withSlot 0 (total .held) (timed 20 .set)).slots.get 0).state ≠ .idle ∧
      ((withSlot 0 (total .held) (timed 20 .set)).slots.get 1).state = .idle) ∧
    ((timed 20 .set).command.attns.get AttnKind.epoch.code).enable = true ∧
    ((withMarker 2 { Marker.reset with source := .timebase 2 } (timed 20 .set)).markers.get 2).source =
      .timebase 2 := by
  decide +kernel

theorem witness_EpochConfirmChangesOnlyTheRecord :
    Receiving (timed 20 .set) ∧ (timed 20 .set).timebase.epoch = .set ∧
    -1 ≤ coarseDiff (7 + (timed 20 .set).timebase.trim.setWidth 47) (timed 20 .set).timebase.count ∧
    coarseDiff (9 + (timed 20 .set).timebase.trim.setWidth 47) (timed 20 .set).timebase.count ≤ 1 := by
  decide +kernel

/-- The smallest horizon, one below the one set, and queues of entries before, at and behind its frontier. -/
theorem witness_TimeSetCommands_smaller :
    let s (es : List Edge) : State :=
      let t := timed 20000 .set; { t with queue := { entries := es, mark := t.timebase.frontier } }
    (∀ es ∈ [[], [rise 4 (at_ 19744 0)], [rise 4 (at_ 19744 1)],
        [rise 4 (at_ 19000 0), rise 5 (at_ 19744 0), rise 4 (at_ 19745 0)]],
      TakesQuietly (s es) cmd ∧ 256 ≤ 256 ∧ 8191 ≤ 65535 ∧ 256 < (s es).timebase.horizon ∧
      8191 < (s es).timebase.horizon ∧
      ∀ i, ((s es).slots.get i).state = .idle) ∧
    ({ (s []).timebase with horizon := 256 } : Timebase).frontier = at_ 19744 0 := by decide +kernel

theorem witness_TimeSetCommands :
    TakesQuietly base cmd ∧
    (∀ i, (base.slots.get i).state = .idle) ∧ base.timebase.horizon ≤ 8192 ∧
    8191 < base.timebase.horizon ∧
    TakesQuietly (withSlot 7 (total .held) base) cmd ∧
    ((withSlot 7 (total .held) base).slots.get 7).state ≠ .idle := by decide +kernel

/-- Lane 0 of slice 0 by COPY, for channel 4. -/
def copied : State := { captured 0 .reset with map := Bank.set (Bank.fill 128 MapEntry.reset) 0 ⟨.copy, 4⟩ }

theorem witness_EdgesPassedByOrDiscardedAtEntry :
    (Receiving base ∧ (0 : Fin 128).val = (0 : Fin 32).val * 4 + (0 : Fin 4).val ∧
      (127 : Fin 128).val = (31 : Fin 32).val * 4 + (3 : Fin 4).val ∧
      (base.map.get 127).action = .pass) ∧
    ({ captured 0 .reset with node := { address := 1, state := .bypass } } : State).node.state =
      .bypass ∧
    (let s := withChannel 4 (Channel.reset 4) (captured 0 .reset);
      Receiving s ∧ s.node.state ≠ .bypass ∧
      (s.channels.get (s.map.get 0).channel).set.enable = false ∧ (s.map.get 0).action = .take) ∧
    (let s := withChannel 4 (Channel.reset 4) copied;
      (s.channels.get (s.map.get 0).channel).set.enable = false ∧ (s.map.get 0).action = .copy) := by
  decide +kernel

/-- Channel 4 with a last accepted stamp and a phase. An edge arrives with fine code 0, so fraction 8, and
deskew 0. -/
def path4 (last : Option Stamp) (phase : Nat) : State :=
  captured 0 { ChanStatus.reset with last := last, phase := phase, level := .high }

theorem witness_PathOfAnEdgeThroughItsChannel :
    (Receiving (path4 none 0) ∧ (0 : Fin 128).val = (0 : Fin 32).val * 4 + (0 : Fin 4).val ∧
      (path4 none 0).node.state ≠ .bypass ∧ ((path4 none 0).map.get 0).action ≠ .pass ∧
      ((path4 none 0).map.get 0).channel = 4 ∧ ((path4 none 0).channels.get 4).set.enable = true ∧
      ((path4 none 0).channels.get 4).set.sense = .rise ∧
      ((path4 none 0).channels.get 4).set.invert = false) ∧
    (((path4 none 2).channels.get 4).status.phase + 1 = ((path4 none 2).channels.get 4).set.prescale ∧
      ((path4 none 1).channels.get 4).status.phase + 1 <
        ((path4 none 1).channels.get 4).set.prescale) ∧
    ((path4 (some 5) 0).channels.get 4).status.last = some 5 := by decide +kernel

/-- The stamps of that edge against a last accepted one: equal, within the holdoff, and at its end. -/
theorem witness_PathOfAnEdge_stamps :
    edgeStamp (extendCoarse 1000070 (BitVec.ofNat 16 1000070)) 8 0 = at_ 1000070 8 ∧
    later (at_ 1000070 8) (at_ 1000070 8) = false ∧
    (later (at_ 1000070 8) (at_ 1000045 9) = true ∧
      stampDiff (at_ 1000070 8) (at_ 1000045 9) = 25 * 4096 - 1) ∧
    (later (at_ 1000070 8) (at_ 1000045 8) = true ∧
      stampDiff (at_ 1000070 8) (at_ 1000045 8) = 25 * 4096) := by decide +kernel

theorem witness_CoarseCountAndFractionOfAnEdge :
    (-4095 ≤ coarseDiff (0 : Coarse) 4095 ∧ coarseDiff (0 : Coarse) 4095 ≤ 61440) ∧
    (-4095 ≤ coarseDiff (61440 : Coarse) 0 ∧ coarseDiff (61440 : Coarse) 0 ≤ 61440) ∧
    Table.reset.phase = .nominal ∧ table2.phase = .loaded ∧
    ({ table2 with phase := .updating 0 table2.entries } : Table).phase = .updating 0 table2.entries := by
  refine ⟨?_, ?_, rfl, rfl, rfl⟩ <;> decide +kernel

theorem witness_ArrivalAtTheOrderingQueue :
    later (rise 9 (at_ 700050 0)).stamp queue610.queue.mark = false ∧
    (later (rise 9 (at_ 0 0)).stamp base.queue.mark = true ∧ base.queue.entries.length < 256) ∧
    (later (rise 9 (at_ 700300 0)).stamp queue610.queue.mark = true ∧
      queue610.queue.entries.length = 256 ∧
      (queue610.command.attns.get AttnKind.reorder.code).enable = true) ∧
    ((withSlot 0 (total .held) base).slots.get 0).references 0 = true := by decide +kernel

/-- A release that moves W and one that does not; a channel that streams; a DIVIDER marker whose hold has
run out at the marker time, and one with a period to run. -/
theorem witness_ArrivalAtTheOrderingQueue_release :
    (later (at_ 700050 1) queue610.queue.mark = true ∧ later (at_ 700050 0) queue610.queue.mark = false) ∧
    ((captured 0 .reset).channels.get 4).set.stream = true ∧
    (mk1 true .high 100).source = .divider 5 ∧
    ((mk1 true .high 100).request ≠ (mk1 true .high 100).invert ∧
      (mk1 true .high 100).holdUntil ≤ 120 ∧ ¬ (mk1 true .high 100).holdUntil ≤ 119 ∧
      -- a toggle that brings the request back to the pin's level
      (mk1 false .high 100).wanted ≠ (mk1 false .high 100).pin) := by decide +kernel

theorem witness_ChanWriteSetsOneField :
    TakesQuietly base cmd ∧ inUse base 4 = false ∧ (base.channels.get 4).set.invert = false ∧
    (TakesQuietly (withSlot 0 (total .held) base) cmd ∧
      inUse (withSlot 0 (total .held) base) 0 = true) ∧
    ((withChannel 4 { (Channel.reset 4) with set := { (Channel.reset 4).set with invert := true } }
      base).channels.get 4).set.invert = true ∧
    -- the last value of each field, and the first past it
    (1 ≤ 1 ∧ 2 ≤ 2 ∧ 7 ≤ 7 ∧ 65535 ≤ 65535 ∧ (1 ≤ 65536 ∧ 65536 ≤ 65536)) ∧
    (2 ≤ 2 ∧ 3 ≤ 3 ∧ 8 ≤ 8 ∧ 65536 ≤ 65536 ∧ (0 = 0 ∨ 65537 ≤ 0) ∧ 16 ≤ 16) ∧
    (∀ d ∈ [(-1048576 : Int), 1048575], -1048576 ≤ d ∧ d ≤ 1048575) ∧
    (∀ d ∈ [(-1048577 : Int), 1048576], d < -1048576 ∨ 1048575 < d) := by decide +kernel

/-- SLOT-SET's and CHAN-WRITE's refusals at those values, as the parts answer them. -/
theorem test_write_refusals :
    (let s := withSlot 0 (total .held) base;
      answer (.chanWrite cmd 0 (.invert 1)) s = some (.inUse, [0, 2, 0]) ∧
      answer (.chanWrite cmd 0 (.invert 2)) s = some (.range, [0, 2, 0]) ∧
      answer (.chanWrite cmd 0 (.stream 1)) s = some (.done, [0, 7, 1]) ∧
      answer (.slotSet cmd 0 (.report 1)) s = some (.state, [0, 11, 1])) ∧
    answer (.chanWrite cmd 16 (.stream 1)) base = some (.range, [16, 7]) ∧
    answer (.slotSet cmd 3 (.endpointB true 16 0)) base = some (.range, [3, 2, 0, 0]) ∧
    answer (.slotSet cmd 3 (.gateMode (.external 15 1))) base = some (.done, [3, 4, 1, 15, 1]) := by
  decide +kernel

theorem witness_ChanReadReportsAndClears :
    TakesQuietly base cmd ∧ (base.channels.get 4).status.last = none ∧
    ((captured 0 { ChanStatus.reset with last := some 5 }).channels.get 4).status.last = some 5 ∧
    TakesQuietly (captured 0 { ChanStatus.reset with last := some 5 }) cmd := by decide +kernel

theorem witness_LoadBufferOpensAndEmpties :
    (Takes base cmd ∧ base.command.load.phase = .empty ∧ base.command.load.phase ≠ .full) ∧
    (Takes (load5 []) cmd ∧ (load5 []).command.load.phase ≠ .empty) ∧
    TableUnclaimed base 5 ∧ ¬ TableUnclaimed (run510 2) 6 := by
  unfold TableUnclaimed; decide +kernel

theorem witness_LoadDataFillsTheBuffer :
    (Takes base cmd ∧ base.command.load.phase ≠ .opened) ∧
    (Takes (load5 [1, 2, 3, 4, 5, 6]) cmd ∧ (load5 [1, 2, 3, 4, 5, 6]).command.load.phase = .opened ∧
      (load5 [1, 2, 3, 4, 5, 6]).command.load.words.length <
        (load5 [1, 2, 3, 4, 5, 6]).command.load.expected) ∧
    ([7] : List Word16).length < 8 - 6 ∧ ([7, 8] : List Word16).length = 8 - 6 ∧
    8 - 6 < ([7, 8, 9] : List Word16).length ∧ ([7, 8, 9] : List Word16).length ≤ 3 := by decide +kernel

/-- A map with one entry that is not PASS claims no channel twice. -/
theorem mapSound_one (i : Fin 128) (e : MapEntry) :
    MapSound (Bank.set (Bank.fill 128 MapEntry.reset) i e) := by
  have other (c : Fin 16) (j : Fin 128) (h : j ≠ i) :
      ((Bank.set (Bank.fill 128 MapEntry.reset) i e).get j).claims c = false := by
    rw [Bank.get_set_ne _ _ h, Bank.get_fill]; rfl
  intro c j k hj hk
  by_cases h : j = i
  · by_cases h' : k = i
    · rw [h, h']
    · rw [other c k h'] at hk; cases hk
  · rw [other c j h] at hj; cases hj

/-- The load of one word, TAKE for channel 3, and the same while a TOTAL slot counts channel 3. -/
def busy3 : State :=
  withSlot 0
    { total .totalCounting with
      config := { (total .totalCounting).config with endpointA := ⟨3, .any⟩ } }
    (loadMap [0x13])

theorem witness_MapCommitChecksConflictThenInUse :
    (Takes (loadMap [0x13]) cmd ∧ (loadMap [0x13]).command.load.phase = .full ∧
      (loadMap [0x13]).command.load.target = .map) ∧
    -- two entries claim channel 3
    (mapEntryOf 0x13).claims 3 = true ∧ (mapEntryOf 0x23).claims 3 = true ∧
    -- a sound merged map, which changes entry 0
    MapSound (Bank.set (Bank.fill 128 MapEntry.reset) 0 (mapEntryOf 0x13)) ∧
    mapEntryOf 0x13 ≠ MapEntry.reset ∧
    -- channel 3 is in use, or not
    (Takes busy3 cmd ∧ inUse busy3 3 = true ∧ inUse (loadMap [0x13]) 3 = false) := by
  refine ⟨by decide +kernel, by decide, by decide, mapSound_one _ _, by decide, by decide +kernel⟩

theorem test_map_commit_in_use : answer (.loadCommit cmd) busy3 = some (.inUse, []) := by
  decide +kernel

theorem witness_LinCommitChecksTheShape :
    (Takes (load2 [1600, 1618, 1636, 1668]) cmd ∧
      (load2 [1600, 1618, 1636, 1668]).command.load.phase = .full ∧
      (load2 [1600, 1618, 1636, 1668]).command.load.target = .lin 2) ∧
    -- the merged values that fail first at 104, and those that do not fail
    ((table2.entries.get 104).toNat < 1668 ∧ (table2.entries.get 99).toNat ≤ 1600) ∧
    (∀ i j : Fin 16, i.val + 1 = j.val →
      (table2.entries.get ⟨96 + i.val, by omega⟩).toNat ≤
        (table2.entries.get ⟨96 + j.val, by omega⟩).toNat) := by decide +kernel

/-- A PLAN run at step 7, whose step is LAST, and the load of one step there. -/
def running (n : Fin 64) (s : State) : State :=
  withSlot 0
    { Slot.reset with
      config := { SlotConfig.reset with gate := .plan n }
      state := .armed
      run := { Run.empty with planStep := some n } } s

theorem planSound_reset : PlanSound (Bank.fill 64 PlanStep.reset) :=
  ⟨fun n => by rw [Bank.get_fill]; decide, by rw [Bank.get_fill]; decide⟩

theorem witness_PlanCommitKeepsReachableSteps :
    (Takes (loadPlan 7 [0, 5, 0x8A10]) cmd ∧
      (loadPlan 7 [0, 5, 0x8A10]).command.load.phase = .full ∧
      (loadPlan 7 [0, 5, 0x8A10]).command.load.target = .plan) ∧
    LoadSound (loadPlan 7 [0, 5, 0x8A10]).command.load ∧ PlanSound (loadPlan 7 []).plan ∧
    planStepOf 63 0 5 0 = none ∧ planStepOf 7 0 5 0x8A10 ≠ none ∧
    -- no slot runs, or one stands at step 7
    (∀ i, ((loadPlan 7 []).slots.get i).state = .idle) ∧
    (((running 7 base).slots.get 0).state ≠ .idle ∧
      ((running 7 base).slots.get 0).config.gate = .plan 7 ∧
      ((running 7 base).slots.get 0).run.planStep = some 7 ∧
      Relation.ReflTransGen (LeadsTo base.plan) 7 7) := by
  refine ⟨by decide +kernel, ?_, planSound_reset, by decide, by decide, by decide +kernel,
    by decide +kernel, by decide +kernel, by decide +kernel, .refl⟩
  exact ⟨by decide, by decide, by decide, by decide⟩

/-- A length of 0, action 3 and NEXT at step 63 are refused; NEXT at step 62 and LAST at step 63 are not. -/
theorem witness_PlanCommitKeepsReachableSteps_steps :
    (∀ x ∈ [planStepOf 7 0 0 0, planStepOf 7 0 1 0x0600, planStepOf 63 0 1 0], x = none) ∧
    planStepOf 62 0 1 0 = some ⟨1, .measure, 0, .next⟩ ∧
    planStepOf 63 0xFFFF 0xFFFF 0x7C07 = some ⟨0xFFFFFFFF, .measure, 15, .last⟩ ∧
    planStepOf 63 0 1 0x83F8 = some ⟨1, .wait, 0, .jump 63⟩ := by decide +kernel

theorem test_plan_commit_in_use :
    answer (.loadCommit cmd) (running 7 (loadPlan 7 [0, 5, 0x8A10])) = some (.inUse, []) ∧
    answer (.loadCommit cmd) (running 8 (loadPlan 7 [0, 5, 0x8A10])) = some (.done, []) := by
  decide +kernel

def updating (n : Nat) : State := base.setTable 2 { table2 with phase := .updating n table2.entries }

theorem witness_UpdateLasts500Periods :
    (updating 499).held = false ∧ 498 + 1 < 500 ∧ 499 + 1 = 500 ∧
    ((updating 499).tables.get 2).phase = .updating 499 table2.entries ∧
    exec .timebaseAdvance (updating 499) = .next (ran .timebaseAdvance (updating 499)) ∧
    ((updating 499).command.attns.get AttnKind.table.code).enable = true ∧
    (base.tables.get 2).isUpdating = false := by
  refine ⟨rfl, by decide, by decide, rfl, rfl, by decide +kernel, by decide +kernel⟩

theorem witness_TableReadReports :
    (TakesQuietly base cmd ∧ (base.tables.get 0).isUpdating = false) ∧
    (TakesQuietly (updating 0) cmd ∧ ((updating 0).tables.get 2).isUpdating = true) := by
  decide +kernel

theorem witness_CalRunStartsARun :
    (TakesQuietly base cmd ∧ (base.channels.get 4).set.enable = false ∧ base.cal.active = false ∧
      (base.tables.get 6).isUpdating = false) ∧
    (TakesQuietly (run510 2) cmd ∧ (run510 2).cal.active = true) ∧
    (TakesQuietly (captured 0 .reset) cmd ∧ ((captured 0 .reset).channels.get 4).set.enable = true ∧
      ((captured 0 .reset).map.get 0).claims 4 = true ∧ (captured 0 .reset).cal.active = false ∧
      (captured 0 .reset).command.load.phase ≠ .full) := by decide +kernel

theorem witness_CalibrationEndsEarly :
    (TakesQuietly (run510 2) cmd ∧ (run510 2).cal.active = true) ∧ base.cal.active = false ∧
    (let s : State := { base with cal := { (run510 2).cal with elapsed := 2499999 } };
      s.held = false ∧ s.cal.active = true ∧ s.cal.elapsed + 1 = s.cal.timeout * 250000) ∧
    (run510 2).cal.elapsed + 1 < (run510 2).cal.timeout * 250000 := by decide +kernel

theorem witness_CalibrationCompletesAtTheLastHit :
    base.cal.active = false ∧
    ((run510 2).cal.active = true ∧ (run510 2).cal.channel = 6 ∧ (run510 2).cal.channel ≠ 5) ∧
    (let s (n : Nat) : State := { base with cal := { (run510 2).cal with hits := n } };
      (s 4094).cal.hits + 1 < 2 ^ (s 4094).cal.k ∧ (s 4095).cal.hits + 1 = 2 ^ (s 4095).cal.k ∧
      (s 4095).cal.hits < 2 ^ (s 4095).cal.k) ∧
    ((run510 2).held = false ∧ (run510 2).cal.hits = 2 ^ (run510 2).cal.k) := by decide +kernel

theorem witness_SlotSetWritesOneField :
    (TakesQuietly base cmd ∧ (base.slots.get 3).state = .idle) ∧
    (TakesQuietly (withSlot 3 (total .held) base) cmd ∧
      ((withSlot 3 (total .held) base).slots.get 3).state ≠ .idle) ∧
    -- the ends of each range, and the first values past them
    (1 ≤ 2 ^ 40 ∧ 65535 ≤ 65535 ∧ 1 ≤ 65535 ∧ 1 ≤ 2 ^ 32 - 1 ∧ 63 ≤ 63 ∧ 1 ≤ 1 ∧ 2 ≤ 2) ∧
    (2 ^ 40 < 2 ^ 40 + 1 ∧ 65535 < 65536 ∧ 2 ^ 32 ≤ 2 ^ 32 ∧ 64 ≤ 64 ∧ 3 ≤ 3 ∧ 16 ≤ 16 ∧ 8 ≤ 8) := by
  decide +kernel

/-- A retained TOTAL record, of segments 0 to 5. -/
def kept : State :=
  withSlot 3
    { Slot.reset with
      retained := some
        { slot := 3, gateIndex := 0, seq := 0, values := true, flags := .clear
          body := .total 1 2 (-1) 0 0 } }
    base

theorem witness_SlotGetReports :
    (TakesQuietly base cmd ∧ (base.slots.get 3).state = .idle ∧ (base.slots.get 3).retained = none) ∧
    (((running 7 base).slots.get 0).state ≠ .idle ∧
      ((running 7 base).slots.get 0).config.gate = .plan 7 ∧
      ((running 7 base).slots.get 0).run.planStep = some 7) ∧
    (TakesQuietly kept cmd ∧ ((kept.slots.get 3).retained.map fun r => r.body.cells) = some 6) ∧
    6 ≤ 6 ∧ 7 ≤ 7 ∧ answer (.slotGet cmd 3 (.result 6)) kept = some (.done, [0x79, 0]) ∧
    answer (.slotGet cmd 3 (.result 7)) kept = some (.range, []) := by
  decide +kernel

theorem configSound_reset : ConfigSound SlotConfig.reset := by unfold ConfigSound; decide +kernel

/-- A part whose slot 0 has a configuration, at a release mark. -/
def ready (g : SlotConfig) (w : Stamp) : State :=
  withMark w (withSlot 0 { Slot.reset with config := g } base)

theorem witness_ArmStartsARun :
    let g := SlotConfig.reset
    (TakesQuietly (ready g (at_ 5 0)) cmd ∧ ConfigSound ((ready g (at_ 5 0)).slots.get 0).config ∧
      PlanSound (ready g (at_ 5 0)).plan ∧ ((ready g (at_ 5 0)).slots.get 0).state = .idle) ∧
    (g.kind = .rate ∧ g.armSource = .immediate ∧ g.gate = .timed) ∧
    ((at_ 5 0).toNat % 4096 = 0 ∧ (at_ 5 1).toNat % 4096 ≠ 0) ∧
    (later (at_ 5 0) (at_ 5 0) = false ∧ later (at_ 6 0) (at_ 5 0) = true) ∧
    -- the other sources, modes and kinds are configurations in range too
    (∀ h ∈ [{ g with armSource := .atTime }, { g with armSource := .armEdge ⟨3, .rise⟩ },
        { g with gate := .openEnded, kind := .total }, { g with gate := .external 3 .high },
        { g with gate := .plan 63 }, { g with kind := .interval }],
      ConfigSound h ∧ TakesQuietly (ready h (at_ 5 0)) cmd) ∧
    ((withSlot 0 (total .held) base).slots.get 0).state ≠ .idle := by
  refine ⟨⟨by decide +kernel, ?_, planSound_reset, by decide +kernel⟩, by decide +kernel,
    by decide +kernel, by decide +kernel, ?_, by decide +kernel⟩
  · unfold ConfigSound; decide +kernel
  · unfold ConfigSound; decide +kernel

/-- A slot in each state that STOP meets. -/
theorem witness_StopActsByTheSlotsState :
    let s (x : Slot) := withSlot 3 x (withMark (b714 1699840) base)
    let stopped : RunFlags := { RunFlags.clear with stopped := true }
    (∀ x ∈ [slot714 .idle .empty, slot714 .armed .empty, slot714 .opening gate0,
        slot714 .rateCounting gate0, slot714 .closing gate0,
        slot714 .closing { gate0 with flags := stopped },
        slot714 .closing { gate0 with flags := stopped, n := 1 }, total .seekA, total .seekB,
        total .totalCounting, total .held],
      TakesQuietly (s x) cmd ∧ x.run.gateIndex < 2 ^ 32 - 1) ∧
    -- a close that lies past W, one that W has reached, and none
    (earlier (b714 1024000) (roundUp (b714 0)) = false ∧ b714 1024000 ≠ b714 0) ∧
    (earlier (b714 2048000) (roundUp (b714 1699840)) = false ∧
      roundUp (b714 1699840) = b714 1699840) := by decide +kernel

theorem witness_HoldAndResume :
    (TakesQuietly base cmd ∧ (base.slots.get 0).config.kind ≠ .total) ∧
    (∀ st ∈ [SlotState.idle, .totalCounting, .held],
      TakesQuietly (withSlot 0 (total st) base) cmd ∧
      ((withSlot 0 (total st) base).slots.get 0).config.kind = .total) := by decide +kernel

/-- Each kind of boundary alone in a slot, reached at W and not before. -/
theorem witness_BoundaryRowsTakeWhatWHasReached :
    ({ Slot.reset with state := .armed, run := { Run.empty with armAt := some 9 } } : Slot).boundaries =
      [(.armTime, 9)] ∧
    (slot714 .rateCounting gate0).boundaries = [(.gateClose, b714 1024000)] ∧
    (slot714 .closing { gate0 with lastGate := true }).boundaries =
      [(.closeTimeout, at_ (1000250 + 2 ^ 25) 0)] ∧
    ({ Slot.reset with state := .armed, run := { Run.empty with stepEnd := some 9 } } : Slot).boundaries =
      [(.stepEnd, 9)] ∧
    base.held = false ∧ later (b714 1024000) (b714 1024000) = false ∧
    later (b714 1024000) (b714 1023999) = true := by decide +kernel

/-- Gates of one coarse period each, the first of which closes at count 6, with W at count 7. -/
def minute : State :=
  withMark (at_ 7 0) (withSlot 0
    { Slot.reset with
      config := { SlotConfig.reset with kind := .total, length := 1, repeats := 0 }
      state := .totalCounting
      run := { Run.empty with watching := true, tOpen := some (at_ 5 0), tClose := some (at_ 6 0) } }
    base)

/-- The states that the closes at 6, 7, … leave, one after another. -/
def minutes : Nat → State
  | 0 => minute
  | j + 1 =>
    applySlot 0 (((minutes j).slots.get 0).takeBoundary 0 (minutes j).plan .gateClose (at_ (6 + j) 0))
      (minutes j)

/-- W has reached two closes, the second of which the first sets. -/
theorem witness_BoundaryRowsTakeWhatWHasReached_in_order :
    (∀ j, j < 2 → ((minutes j).slots.get 0).boundaries = [(.gateClose, at_ (6 + j) 0)] ∧
      later (at_ (6 + j) 0) (minutes 0).queue.mark = false) ∧
    (((minutes 2).slots.get 0).boundaries = [(.gateClose, at_ 8 0)] ∧
      later (at_ 8 0) (minutes 0).queue.mark = true) ∧
    2 ≤ 8 * (((minutes 0).queue.mark - at_ 6 0).toNat / 4096 + 2) ∧
    (settleSlot minute 0).slots.get 0 = (minutes 2).slots.get 0 := by decide +kernel

/-- A slot of a kind and gate mode in a state, with a run. -/
def slotOf (kind : SlotKind) (gate : GateMode) (state : SlotState) (run : Run) : Slot :=
  { Slot.reset with
    config := { SlotConfig.reset with kind := kind, gate := gate, repeats := 2 }
    state := state, run := run }

theorem witness_SlotBoundaries :
    (∀ kind ∈ [SlotKind.rate, .interval, .total],
      ∀ gate ∈ [GateMode.timed, .openEnded, .external 3 .high, .plan 63],
      let x := slotOf kind gate .armed .empty;
      x.state = .armed ∧ x.config.armSource = .immediate ∧ x.config.gate = gate ∧
      x.config.kind = kind ∧ x.run.lastGate = false) ∧
    ({ SlotConfig.reset with armSource := .armEdge ⟨3, .any⟩ } : SlotConfig).armSource =
      .armEdge ⟨3, .any⟩ ∧
    -- the last pending gate in the repeats, and the first index past them
    (let x (k : Nat) := slotOf .rate .timed .rateCounting { Run.empty with gateIndex := k };
      (x 0).run.gateIndex + 1 + (x 0).run.passed < (x 0).config.repeats ∧
      ¬ (x 1).run.gateIndex + 1 + (x 1).run.passed < (x 1).config.repeats ∧
      (x 1).run.gateIndex + 1 + (x 1).run.passed < 2 ^ 32 - 1) ∧
    (∀ gate ∈ [GateMode.openEnded, .external 3 .high, .plan 63],
      let x := slotOf .rate gate .rateCounting .empty;
      x.state = .rateCounting ∧ x.config.gate ≠ .timed ∧
      x.run.gateIndex + 1 + x.run.passed < 2 ^ 32 - 1) ∧
    (let p : PendingGate := ⟨5, some 6, 1, clean⟩;
      let x := slotOf .rate .timed .closing { Run.empty with pendingGate := some p };
      x.state = .closing ∧ x.run.pendingGate = some p ∧ x.config.gate = .timed ∧
      x.run.gateIndex + 2 + x.run.passed < 2 ^ 32 - 1) ∧
    (let x := slotOf .rate .timed .opening .empty;
      x.state = .opening ∧ x.config.kind = .rate ∧ x.run.lastGate = false ∧ x.run.passed = 0 ∧
      x.run.gateIndex + 1 < 2 ^ 32 - 1) ∧
    (let x (n : Nat) := slotOf .rate .timed .closing { Run.empty with lastGate := true, n := n };
      (x 0).state = .closing ∧ (x 1).run.lastGate = true ∧ (x 1).run.pendingGate = none ∧
      (x 1).run.gateIndex < 2 ^ 32 - 1) ∧
    (let q : PlanStep := { PlanStep.reset with kind := .wait, action := .jump 9 };
      let x :=
        slotOf .rate (.plan 0) .armed { Run.empty with stepRecord := some q, planStep := some 63 };
      x.state = .armed ∧ x.run.stepRecord = some q ∧ x.run.planStep = some 63 ∧
      x.run.lastGate = false ∧ q.action = .jump 9 ∧
      ((Bank.fill 64 q).get 9).kind = .wait ∧ x.config.gate = .plan 0) ∧
    (PlanStep.reset.action = .last ∧
      ({ PlanStep.reset with action := .next } : PlanStep).action = .next) := by decide +kernel

/-- Gates of the other kinds at their close, with the index inside its limit: a batch begun and none, counts,
a closing gate with a pending one under TIMED and under EXTERNAL, and with none under EXTERNAL and PLAN, where
repeats remain and where they do not. -/
theorem witness_SlotBoundaries_results :
    (∀ st ∈ [SlotState.seekA, .seekB], let x := slotOf .interval .timed st .empty;
      x.config.gate = .timed ∧ x.run.lastGate = false ∧ x.run.passed = 0 ∧ x.state = st ∧
      x.config.kind = .interval ∧ x.run.gateIndex + 1 < 2 ^ 32 - 1 ∧
      x.run.gateIndex + 1 < x.config.repeats) ∧
    (∀ st ∈ [SlotState.totalCounting, .held],
      let x := slotOf .total .timed st { Run.empty with gateIndex := 1 };
      x.state = st ∧ x.config.kind = .total ∧ ¬ x.run.gateIndex + 1 < x.config.repeats) ∧
    (let p : PendingGate := ⟨5, some 6, 1, clean⟩;
      let x (g : GateMode) := slotOf .rate g .closing { Run.empty with pendingGate := some p };
      (x .timed).run.pendingGate = some p ∧ (x .timed).config.gate = .timed ∧
      (x (.external 3 .high)).config.gate ≠ .timed ∧ (x (.plan 0)).config.gate ≠ .timed ∧
      (x (.plan 0)).run.gateIndex + 1 + (x (.plan 0)).run.passed < 2 ^ 32 - 1) ∧
    (let x (g : GateMode) (k : Nat) (e : Option Stamp) :=
        slotOf .rate g .closing { Run.empty with gateIndex := k, stepEnd := e };
      (x (.external 3 .high) 0 none).run.pendingGate = none ∧
      (x (.external 3 .high) 0 none).run.lastGate = false ∧
      (x (.external 3 .high) 0 none).run.gateIndex + 1 < (x (.external 3 .high) 0 none).config.repeats ∧
      ¬ (x (.external 3 .high) 1 none).run.gateIndex + 1 <
        (x (.external 3 .high) 1 none).config.repeats ∧
      (x (.plan 0) 0 (some 9)).run.stepEnd ≠ none ∧ (x (.plan 0) 0 none).run.stepEnd = none ∧
      -- a TIMED gate and an open-ended one with none pending
      ((x .timed 0 none).config.gate = .timed ∧ (x .timed 0 none).run.pendingGate = none ∧
        (x .timed 0 none).run.gateIndex + 1 < (x .timed 0 none).config.repeats ∧
        ¬ (x .timed 1 none).run.gateIndex + 1 < (x .timed 1 none).config.repeats) ∧
      (x .openEnded 0 none).config.gate = .openEnded) := by
  decide +kernel

/-- A plan of a WAIT and a MEASURE step, and slots that stand at the end of such a step. -/
theorem witness_SlotBoundaries_steps :
    let wait : PlanStep := { PlanStep.reset with kind := .wait, action := .next }
    let plan : Bank PlanStep 64 := Bank.set (Bank.fill 64 PlanStep.reset) 1 wait
    let x (kind : SlotKind) (st : SlotState) (p : PlanStep) : Slot :=
      slotOf kind (.plan 0) st
        { Run.empty with planStep := some 0, stepRecord := some p, stepEnd := some 9 }
    ((plan.get 1).kind = .wait ∧ (plan.get 2).kind = .measure) ∧
    (∀ st ∈ [SlotState.armed, .rateCounting, .closing],
      (x .rate st wait).config.gate = .plan 0 ∧ (x .rate st wait).run.lastGate = false ∧
      (x .rate st wait).run.stepRecord = some wait ∧ (x .rate st wait).run.planStep = some 0 ∧
      (x .rate st wait).state = st ∧ (x .rate st wait).run.stepEnd ≠ none ∧
      (x .rate st wait).run.gateIndex + 2 + (x .rate st wait).run.passed < 2 ^ 32 - 1) ∧
    -- a gate of each kind and state whose result falls at the step's end
    (∀ k ∈ [(SlotKind.rate, SlotState.opening), (.interval, .seekA), (.interval, .seekB),
        (.total, .totalCounting), (.total, .held)],
      (x k.1 k.2 wait).state = k.2 ∧ (x k.1 k.2 wait).config.kind = k.1 ∧
      (x k.1 k.2 wait).config.gate = .plan 0 ∧ (x k.1 k.2 wait).run.stepRecord = some wait ∧
      (x k.1 k.2 wait).run.planStep = some 0 ∧ (x k.1 k.2 wait).run.lastGate = false ∧
      (x k.1 k.2 wait).run.passed = 0 ∧ (x k.1 k.2 wait).run.gateIndex + 1 < 2 ^ 32 - 1 ∧
      (x k.1 k.2 wait).run.stepEnd ≠ none) ∧
    -- the last gate, at a step's end in COUNTING and CLOSING
    (∀ st ∈ [SlotState.rateCounting, .closing],
      let y := { (x .rate st wait) with run := { (x .rate st wait).run with lastGate := true } };
      y.run.lastGate = true ∧ y.run.stepRecord = some wait ∧ y.state = st) ∧
    ((wait.action = .next ∧ (1 : Fin 64) = 0 + 1) ∧ PlanStep.reset.action = .last) := by decide +kernel

theorem witness_ArmAndGateEdges :
    let up := rise 3 (at_ 5 0)
    let down : Edge := { up with sense := .fall }
    (∀ kind ∈ [SlotKind.rate, .interval, .total],
      ∀ gate ∈ [GateMode.timed, .openEnded, .external 3 .high, .plan 63],
      let x : Slot :=
        { slotOf kind gate .armed { Run.empty with armWait := true } with
          config := { SlotConfig.reset with kind := kind, gate := gate, armSource := .armEdge ⟨3, .rise⟩ } };
      x.state = .armed ∧ x.config.armSource = .armEdge ⟨3, .rise⟩ ∧ x.run.armWait = true ∧
      x.config.kind = kind ∧ x.config.gate = gate ∧ x.run.lastGate = false) ∧
    ((⟨3, .rise⟩ : Endpoint).admits up = true ∧ (⟨3, .rise⟩ : Endpoint).admits down = false) ∧
    (let x (kind : SlotKind) (st : SlotState) (ph : Option ExtPhase) : Slot :=
        { slotOf kind (.external 3 .high) st { Run.empty with watching := true, extPhase := ph } with
          config :=
            { SlotConfig.reset with kind := kind, gate := .external 3 .high, repeats := 0 } };
      (x .rate .armed (some .waitInactive)).run.extPhase = some .waitInactive ∧
      (∀ kind ∈ [SlotKind.rate, .interval, .total],
        (x kind .armed (some .waitActive)).run.extPhase = some .waitActive ∧
        (x kind .armed (some .waitActive)).run.watching = true ∧
        (x kind .armed (some .waitActive)).config.kind = kind) ∧
      (x .rate .rateCounting none).config.gate = .external 3 .high ∧
      ((x .rate .closing none).run.pendingGate = none ∧ (x .rate .closing none).run.lastGate = false ∧
        (x .rate .closing none).config.repeats = 0 ∧
        (x .rate .closing none).run.gateIndex + 1 + (x .rate .closing none).run.passed < 2 ^ 32 - 1) ∧
      (x .rate .opening none).config.kind = .rate ∧ (x .interval .seekA none).state = .seekA ∧
      (x .interval .seekB none).state = .seekB ∧ (x .total .held none).state = .held) ∧
    (let x (n k : Nat) (last : Bool) : Slot :=
        { slotOf .total (.external 3 .high) .totalCounting
            { Run.empty with watching := true, gateIndex := k, lastGate := last } with
          config :=
            { SlotConfig.reset with kind := .total, gate := .external 3 .high, repeats := n } };
      (x 2 0 false).run.gateIndex + 1 < (x 2 0 false).config.repeats ∧
      ((x 2 1 false).config.repeats ≠ 0 ∧ (x 2 1 false).config.repeats ≤ (x 2 1 false).run.gateIndex + 1) ∧
      (x 0 0 true).run.lastGate = true) ∧
    -- an opening edge in CLOSING: a repeat remains, none remains, a gate is pending, STOP was taken
    (let x (k : Nat) (p : Option PendingGate) (last : Bool) : Slot :=
        slotOf .rate (.external 3 .high) .closing
          { Run.empty with watching := true, gateIndex := k, pendingGate := p, lastGate := last };
      ((x 0 none false).state = .closing ∧ (x 0 none false).run.watching = true ∧
        (x 0 none false).config.gate = .external 3 .high ∧ (x 0 none false).config.repeats = 2) ∧
      ((x 0 none false).run.pendingGate = none ∧ (x 0 none false).run.lastGate = false ∧
        (x 0 none false).run.gateIndex + 1 + (x 0 none false).run.passed < 2) ∧
      ((x 1 none false).run.pendingGate = none ∧
        2 ≤ (x 1 none false).run.gateIndex + 1 + (x 1 none false).run.passed ∧
        (x 1 none false).run.gateIndex + 1 + (x 1 none false).run.passed < 2 ^ 32 - 1) ∧
      (x 0 (some ⟨5, none, 1, clean⟩) false).run.pendingGate ≠ none ∧
      (x 0 none true).run.lastGate = true) ∧
    up.sense = .rise ∧ down.sense = .fall := by decide +kernel

theorem witness_EdgesAtTheEndpoints :
    (∀ st ∈ [SlotState.opening, .rateCounting, .closing],
      (slot714 st gate0).config.kind = .rate ∧ (slot714 st gate0).state = st ∧
      (slot714 st gate0).config.endpointA.admits (rise 2 5) = true ∧
      (slot714 st gate0).config.endpointA.admits (rise 3 5) = false ∧
      (slot714 st { gate0 with n := 2 ^ 40 - 3 }).run.n + 1 < 2 ^ 40 - 1 ∧
      (2 ^ 40 - 1 ≤ (slot714 st { gate0 with n := 2 ^ 40 - 2 }).run.n + 1 ∧
        (slot714 st { gate0 with n := 2 ^ 40 - 1 }).run.n ≤ 2 ^ 40 - 1) ∧
      (slot714 st gate0).run.gateIndex + 1 + (slot714 st gate0).run.passed < 2 ^ 32 - 1) ∧
    (let p : PendingGate := ⟨5, some 6, 1, clean⟩;
      (slot714 .closing { gate0 with pendingGate := some p }).run.pendingGate = some p) ∧
    (let x (gate : GateMode) (run : Run) : Slot := slotOf .rate gate .closing run;
      -- one more EXTERNAL gate and none, one more plan step and none, the last TIMED gate
      ((x (.external 3 .high) .empty).run.gateIndex + 1 < (x (.external 3 .high) .empty).config.repeats ∧
        ¬ (x (.external 3 .high) { Run.empty with gateIndex := 1 }).run.gateIndex + 1 <
          (x (.external 3 .high) { Run.empty with gateIndex := 1 }).config.repeats) ∧
      ((x (.plan 0) { Run.empty with stepEnd := some 9 }).run.stepEnd ≠ none ∧
        (x (.plan 0) .empty).run.stepEnd = none) ∧
      ((x .timed { Run.empty with gateIndex := 1 }).config.repeats ≤
        (x .timed { Run.empty with gateIndex := 1 }).run.gateIndex + 1 ∧
        (x .timed { Run.empty with lastGate := true }).run.lastGate = true)) ∧
    ((total .held).config.kind = .total ∧ (total .totalCounting).run.countA + 1 < 2 ^ 40 - 1 ∧
      ∀ n ∈ [2 ^ 40 - 2, 2 ^ 40 - 1],
        ({ total .totalCounting with
          run := { (total .totalCounting).run with countA := n, countB := n } } : Slot).run.countB ≤
            2 ^ 40 - 1) := by decide +kernel

/-- A batch with a sample pending: its edges, the differences at the limits of a sample, the last sample of
a batch, and gates with and without another batch to come. -/
theorem witness_EdgesAtTheEndpoints_batches :
    let x (gate : GateMode) (shared : Bool) (run : Run) : Slot :=
      { Slot.reset with
        config :=
          { SlotConfig.reset with
            kind := .interval, endpointA := ⟨0, .rise⟩, endpointB := some ⟨1, .rise⟩, samples := 2
            shared := shared, gate := gate, repeats := 2 }
        state := .seekB
        run := { run with pendingA := some ⟨at_ 5 0, clean⟩ } }
    let y := x .timed false .empty
    (y.config.kind = .interval ∧ y.state = .seekB ∧ y.run.pendingA = some ⟨at_ 5 0, clean⟩) ∧
    (y.admitsB (rise 1 (at_ 5 0)) = true ∧ (rise 1 (at_ 5 1)).stamp ≠ at_ 5 0) ∧
    (y.admitsB (rise 0 (at_ 6 0)) = false ∧ y.config.endpointA.admits (rise 0 (at_ 6 0)) = true) ∧
    (0 < stampDiff (at_ 5 1) (at_ 5 0) ∧ stampDiff (at_ 5 1) (at_ 5 0) < 2 ^ 56) ∧
    (stampDiff (at_ (5 + 2 ^ 44) (2 ^ 12 - 1) - 4096) (at_ 5 0) = 2 ^ 56 - 1) ∧
    (y.run.count + 1 < y.config.samples ∧
      (x .timed true { Run.empty with count := 1 }).config.samples ≤
        (x .timed true { Run.empty with count := 1 }).run.count + 1) ∧
    (y.run.passed = 0 ∧ y.run.gateIndex + 1 < 2 ^ 32 - 1 ∧ y.run.lastGate = false ∧
      y.run.gateIndex + 1 < y.config.repeats ∧
      ¬ (x .openEnded false { Run.empty with gateIndex := 1 }).run.gateIndex + 1 <
        (x .openEnded false { Run.empty with gateIndex := 1 }).config.repeats ∧
      (x (.plan 0) false { Run.empty with stepEnd := some 9 }).run.stepEnd ≠ none) ∧
    (∀ sum ∈ [0, 2 ^ 64 - 1], (x .timed true { Run.empty with sum := sum }).run.sum = sum) := by
  decide +kernel

theorem witness_FormulasOfTheArithmetic :
    (1 ≤ 1 ∧ 1 ≤ 2 ^ 58 - 1 ∧ (2 * 10 ^ 6 * 1024000000000000 + 1) / (2 * 1) > 2 ^ 64 - 1) ∧
    (stampDiff (at_ 0 1) 0 = 1 ∧ stampDiff (BitVec.ofNat 59 (2 ^ 56 - 1)) 0 = (2 ^ 56 - 1 : Nat) ∧
      2 ^ 56 ≤ stampDiff (BitVec.ofNat 59 (2 ^ 56)) 0 ∧ stampDiff 0 (at_ 0 1) ≤ 0) ∧
    (let x := slot714 .closing { gate0 with n := 10 ^ 6, t0 := some 0 };
      x.run.t0 = some 0 ∧ 0 < stampDiff (at_ 0 1) 0 ∧
      (frequency (x.run.n * x.run.prescale) (stampDiff (at_ 0 1) 0).toNat).2 = true) ∧
    (intervalSample 0 (BitVec.ofNat 59 (2 ^ 56))).2 = true := by decide +kernel

theorem witness_RecordsCarryTheValues :
    (let x := slot714 .closing { gate0 with t0 := some (at_ 5 0), n := 1 };
      x.run.t0 = some (at_ 5 0) ∧ 0 < stampDiff (at_ 5 1) (at_ 5 0) ∧
      stampDiff (at_ 5 0) (at_ 5 0) ≤ 0) ∧
    (let x : Slot :=
        { Slot.reset with run := { Run.empty with count := 1, min := some 3, max := some 3, sum := 3 } };
      x.run.min = some 3 ∧ x.run.max = some 3 ∧ 1 ≤ x.run.count) ∧
    (Slot.reset.run.count = 0 ∧ Slot.reset.run.min = none ∧ Slot.reset.run.max = none ∧
      Slot.reset.run.sum = 0 ∧ 1 ≤ Slot.reset.config.samples) ∧
    ((total .held).run.tOpen = some (at_ 5 0) ∧ (total .held).run.countA ≤ 2 ^ 40 - 1 ∧
      (total .held).run.countB ≤ 2 ^ 40 - 1) := by decide +kernel

theorem witness_ResultLeavesItsSlot :
    (slot714 .closing gate0).run.gateIndex < 2 ^ 32 - 1 ∧
    (slot714 .closing { gate0 with gateIndex := 2 ^ 32 - 1 }).run.gateIndex = 2 ^ 32 - 1 ∧
    (base.command.attns.get AttnKind.slot.code).enable = true ∧
    ((withMarker 2 (mk2 false .low 0 none) base).markers.get 2).source = .done 3 ∧
    -- a record of the last gate index, and the largest values of the fields
    2 ^ 32 - 1 < 2 ^ 32 ∧ 2 ^ 24 - 1 < 2 ^ 24 ∧ 2 ^ 40 - 1 < 2 ^ 40 ∧ 2 ^ 64 - 1 < 2 ^ 64 ∧
    2 ^ 66 - 256 < 2 ^ 72 ∧ 2 ^ 56 - 1 < 2 ^ 56 ∧ 65535 < 2 ^ 16 ∧ 6 < 7 ∧ 5 < 6 := by decide +kernel

/-- Occupancies 505 and 506 for a record of seven cells, and 504, 505, 511 and 512 with a gap. -/
def filled (n gaps : Nat) : State :=
  { base with
    results :=
      { records := List.replicate n (.stamp 4 .rise clean 0), sent := 0, gaps := gaps
        gapLimit := false, threshold := 512 } }

theorem filled_sound (n gaps : Nat) (h : (filled (n + 1) gaps).results.occupancy ≤ 512)
    (hg : gaps ≤ 65535) : ResultsSound (filled (n + 1) gaps).results :=
  ⟨h, Nat.zero_lt_one, hg, fun e => absurd e Bool.false_ne_true, (by decide : 1 ≤ 512), Nat.le_refl 512⟩

theorem witness_OfferToTheResultQueue :
    (ResultsSound (filled 504 1).results ∧ ResultsSound (filled 512 65535).results) ∧
    (∀ n ∈ [504, 505, 506, 511, 512], (filled n 1).results.occupancy = n) ∧
    (505 + (rate98 0).size ≤ 512 ∧ 512 < 506 + (rate98 0).size) ∧
    (504 + 1 + (rate98 0).size ≤ 512 ∧ 512 < 505 + 1 + (rate98 0).size ∧ 511 + 1 ≤ 512) ∧
    (504 < (filled 504 1).results.threshold ∧ (filled 504 1).results.threshold ≤ 504 + 1 + 7) ∧
    ((filled 504 1).command.attns.get AttnKind.high.code).enable = true := by
  refine ⟨⟨filled_sound 503 1 ?_ ?_, filled_sound 511 65535 ?_ ?_⟩, ?_, ?_, ?_, ?_, ?_⟩ <;>
    decide +kernel

theorem witness_QueueSetSetsTheThreshold :
    TakesQuietly base cmd ∧ (0 < 1 ∧ 512 < 513 ∧ 1 ≤ 1 ∧ 1 ≤ 512 ∧ 512 ≤ 512) := by decide +kernel

theorem witness_MarkerCommands :
    TakesQuietly base cmd ∧ sourceOf (.timebase 2) = some (.timebase 2) ∧
    sourceOf (.timebase (2 ^ 32)) = some (.timebase (2 ^ 32)) ∧
    sourceOf (.timebase (2 ^ 32 + 1)) = none ∧ sourceOf (.other 3) = none ∧
    (base.markers.get 0).source ≠ .level ∧
    ((withMarker 0 { Marker.reset with source := .level } base).markers.get 0).source = .level ∧
    (8 ≤ 8 ∧ 16 ≤ 16 ∧ 4 ≤ 4 ∧ 1 < 2 ∧ 2 ≤ 2 ∧ 2 ^ 32 < 2 ^ 32 + 1 ∧ 65535 ≤ 65535 ∧ 65535 < 65536) := by
  decide +kernel

/-- A slot event without a result and with one, a marker that follows the slot and ones that do not. -/
theorem witness_MarkerCommands_slot_event :
    (∀ r ∈ (slot714 .opening gate0, ([] : List Record)).2, r.slot = 3) ∧
    (∀ r ∈ ((slot714 .closing gate0).emit 3 false (.rate 1 0 0 0 0 0)).2 :: [], r.slot = 3) ∧
    (∀ v ∈ [MarkerSource.gate 3, .armed 3, .step 3 2],
      ((withMarker 0 { Marker.reset with source := v } base).markers.get 0).source = v) ∧
    (∀ v ∈ [MarkerSource.gate 2, .level, .divider 3], v ≠ .gate 3 ∧ v ≠ .armed 3 ∧
      (∀ b, v ≠ .step 3 b) ∧ v ≠ .done 3) := by decide +kernel

/-- The starting requests that Table 10-1 gives of slot 3, by its state. -/
theorem test_starting_requests :
    (∀ st ∈ [SlotState.opening, .rateCounting], startingRequest (withSlot 3 (slot714 st gate0) base) false
      (.gate 3) = true) ∧
    (∀ st ∈ [SlotState.idle, .armed, .closing], startingRequest (withSlot 3 (slot714 st gate0) base) false
      (.gate 3) = false) ∧
    startingRequest (withSlot 3 (slot714 .armed .empty) base) false (.armed 3) = true ∧
    startingRequest (timed 7 .set) false (.timebase 5) = false ∧
    startingRequest (timed 6 .set) false (.timebase 5) = true := by decide +kernel

/-- Each row on both sides of its point: MK1's hold at 120, MK2's pulse ends at 212 and 223. -/
theorem witness_MarkerEvents :
    (base.held = false ∧ (mk1 false .high 100).wanted ≠ (mk1 false .high 100).pin ∧
      (mk1 false .high 100).holdUntil ≤ 120 ∧ 119 < (mk1 false .high 100).holdUntil) ∧
    ((mk2 true .high 200 (some 212)).pulseEnd = some 212 ∧ 212 ≤ 212 ∧ 211 < 212 ∧
      (mk2 true .high 200 (some 212)).holdUntil ≤ 212 ∧
      223 < (mk2 true .high 220 (some 223)).holdUntil) ∧
    -- a pulse that ends while its rise is deferred, and a node reset's own transition on both sides of 120
    ((mk2 true .low 212 (some 223)).invert = false ∧ (mk2 true .low 212 (some 223)).pin = .low) ∧
    (let m := (mk1 true .high 100).nodeReset 110;
      m.wanted ≠ m.pin ∧ m.resetHold.getD (m.lastTransition + m.width) = 120) ∧
    (base.markers.get 0).pulseEnd = none := by decide +kernel

theorem witness_MarkerEvents_at_the_period_end :
    MarkerSound ((withMarker 2 (mk2 true .high 200 (some 212)) base).markers.get 2) ∧
    MarkerSound { Marker.reset with source := .timebase 2 } ∧
    MarkerSound ((mk1 true .high 100).nodeReset 110) ∧
    exec .timebaseAdvance base = .next (ran .timebaseAdvance base) := by
  refine ⟨⟨by decide +kernel, fun p h => ?_, fun _ => ⟨3, by decide +kernel⟩, fun h => absurd rfl h⟩,
    ⟨by decide, fun p h => ?_, fun h => absurd rfl h, fun h => absurd rfl h⟩,
    ⟨by decide, fun p h => (nomatch h), fun h => absurd rfl h, fun _ => by decide⟩, rfl⟩
  · have : (MarkerSource.done 3) = .timebase p := h
    cases this
  · cases h; decide

/-- A state that meets the invariants, channel 4 fed, and the same with a command in front. -/
def quiet : State := { captured 0 .reset with timebase := .reset }
def steps : State := { quiet with pending := [.calCancel cmd] }

theorem witness_EveryStepKeepsTheMapSound :
    MapSound steps.map ∧ step steps = .next (ran (.calCancel cmd) quiet) :=
  ⟨mapSound_one 0 ⟨.take, 4⟩, rfl⟩

theorem witness_EveryStepKeepsTheOrderingQueueInOrder :
    OrderSound steps.queue ∧ step steps = .next (ran (.calCancel cmd) quiet) :=
  ⟨⟨Nat.zero_le _, fun _ h => absurd h List.not_mem_nil, List.Pairwise.nil⟩, rfl⟩

theorem witness_EveryStepKeepsTheQueuesSound :
    step steps = .next (ran (.calCancel cmd) quiet) ∧ ResultsSound steps.results ∧
    RepliesSound steps.command ∧ NoticesSound steps.command ∧ LoadSound steps.command.load ∧
    LoadSound (load5 [1]).command.load := by
  refine ⟨rfl, ⟨by decide +kernel, rfl, by decide +kernel, fun h => absurd h Bool.false_ne_true,
    by decide +kernel, by decide +kernel⟩, ⟨by decide, rfl⟩,
    ⟨List.nodup_nil, fun k h => absurd h List.not_mem_nil⟩, rfl, by decide, by decide, by decide,
    by decide⟩

theorem tableSound_reset : TableSound Table.reset := by
  refine ⟨fun i j h => ?_, trivial⟩
  have : i.val ≤ j.val := h
  simp only [Table.reset, Bank.get_tabulate, nominalFraction, BitVec.le_def, BitVec.toNat_ofNat]
  omega

theorem witness_EveryStepKeepsTheBlocksSound :
    step steps = .next (ran (.calCancel cmd) quiet) ∧
    (∀ n, TableSound (steps.tables.get n)) ∧ CalSound steps.cal ∧ TablesApart steps ∧
    (∀ i, SlotSound (steps.slots.get i)) ∧ (∀ i, ConfigSound (steps.slots.get i).config) ∧
    PlanSound steps.plan ∧ NodeSound steps.node ∧ TimebaseSound steps.timebase ∧
    (∀ n, ChannelSound (base.channels.get n)) ∧ (∀ m, MarkerSound (steps.markers.get m)) ∧
    HeldSound steps := by
  refine ⟨rfl, fun n => ?_, ?_, ⟨fun t h => absurd rfl h, fun h => absurd h Bool.false_ne_true⟩,
    fun i => ?_, fun i => ?_, planSound_reset, witness_NodeSound.1, ?_, ?_, fun m => ?_,
    fun h => absurd h Bool.false_ne_true⟩
  · exact (Bank.get_fill Table.reset n).symm ▸ tableSound_reset
  · unfold CalSound; decide +kernel
  · exact (Bank.get_fill Slot.reset i).symm ▸ fun _ => rfl
  · exact (Bank.get_fill Slot.reset i).symm ▸ configSound_reset
  · unfold TimebaseSound; decide +kernel
  · unfold ChannelSound; decide +kernel
  · refine (Bank.get_fill Marker.reset m).symm ▸ ⟨by decide, fun p h => (nomatch h), fun h => absurd rfl h,
      fun h => absurd rfl h⟩

end Sys2Proof.Tests
end

section
/-!
SUPPORT. The Capture Map over a step (R22): every row leaves the map as it is but for the two resets, which
take it to its power-on value, and the commit of a MAP load, which passes the CONFLICT check (R24).
-/

namespace Sys2Proof.Bank

variable {α : Type} {n : Nat}

theorem cells_eq_map_get (b : Bank α n) : b.cells = (List.finRange n).map b.get := by
  apply List.ext_getElem
  · simp [b.size_eq]
  · intro i _ _
    simp [get_eq]

/-- Two records of a bank that meet `p`, under different numbers, count as two. -/
theorem two_le_countP {b : Bank α n} {p : α → Bool} {i j : Fin n}
    (hi : p (b.get i) = true) (hj : p (b.get j) = true) (hne : i ≠ j) :
    2 ≤ b.cells.countP p := by
  have hsub : [i, j] ⊆ (List.finRange n).filter (p ∘ b.get) := by
    intro k hk
    rcases List.mem_pair.mp hk with rfl | rfl <;> simpa
  have hnodup : [i, j].Nodup := by simpa using hne
  rw [cells_eq_map_get, List.countP_map, List.countP_eq_length_filter]
  exact (hnodup.subperm hsub).length_le

end Sys2Proof.Bank

namespace Sys2Proof.Machine

/-! ## The CONFLICT check (R24) -/

/-- A map that passes the CONFLICT check has at most one claiming entry per channel (R22, R24). -/
theorem mapSound_of_no_conflict {m : Bank MapEntry 128} (h : mapConflict m = false) : MapSound m := by
  intro c i j hi hj
  by_contra hne
  have htwo := Bank.two_le_countP (p := MapEntry.claims c) hi hj hne
  have hc := List.any_eq_false.mp h c (List.mem_finRange c)
  exact hc (decide_eq_true htwo)

/-- The power-on map, every entry PASS, claims no channel (R22, R177). -/
theorem mapSound_power_on : MapSound (.fill 128 MapEntry.reset) := by
  intro c i j hi _
  rw [Bank.get_fill] at hi
  cases hi

/-! ## What a row can do to the map -/

/-- The map after a row: kept, at its power-on value, or one that passed the CONFLICT check. -/
inductive MapStep (m : Bank MapEntry 128) : Bank MapEntry 128 → Prop
  | kept : MapStep m m
  | powerOn : MapStep m (.fill 128 MapEntry.reset)
  | committed {m' : Bank MapEntry 128} (h : mapConflict m' = false) : MapStep m m'

theorem MapStep.of_eq {m m' : Bank MapEntry 128} (h : m' = m) : MapStep m m' := h ▸ .kept

theorem MapStep.keeps_mapSound {m m' : Bank MapEntry 128} (h : MapStep m m') (hm : MapSound m) :
    MapSound m' := by
  cases h with
  | kept => exact hm
  | powerOn => exact mapSound_power_on
  | committed hc => exact mapSound_of_no_conflict hc

/-! ## The map over the arrival of a cell and the taking of a command -/

/-- A cell's arrival keeps the map where the handing on does. -/
theorem receive_map {f : State → State} (hf : ∀ t, (f t).map = t.map) (s : State) :
    (receive f s).map = s.map := by
  rcases receive_cases f s with h | ⟨-, h⟩ | ⟨-, h⟩
  · rw [h]
  · rw [h, toHunt_map]
  · rw [h, hf]

@[simp] theorem abandonLoad_map (code : Nat) (s : State) : (abandonLoad code s).map = s.map := by
  rcases abandonLoad_cases code s with h | ⟨-, -, h⟩
  · rw [h]
  · rw [h, raise_map, emptyLoad_map]

theorem carryOut_map (code : Nat) (tag : Byte) (answers : Bool) (judge : State → Answer)
    (s : State) :
    (carryOut code tag answers judge s).map = (judge (abandonLoad code s)).state.map := by
  cases answers <;> rfl

/-- A command's cell leaves the map, or the map is what the command's own rule makes of it. -/
theorem takeCommand_map_cases (code : Nat) (c : Cell) (judge : Bool → State → Answer) (s : State) :
    (takeCommand code c judge s).map = s.map ∨
      ∃ b t, t.map = s.map ∧ (takeCommand code c judge s).map = (judge b t).state.map := by
  rcases takeCommand_cases code c judge s with
    h | ⟨-, h⟩ | ⟨-, h⟩ | ⟨-, h⟩ | ⟨-, h⟩ | ⟨-, -, h⟩
  · exact .inl (by rw [h])
  · exact .inl (by rw [h, toHunt_map])
  · exact .inl (by rw [h, relayed])
  · exact .inl (by rw [h, raise_map, consumed])
  · exact .inr ⟨true, abandonLoad code (relayed c s), abandonLoad_map _ _, by rw [h, carryOut_map]⟩
  · exact .inr ⟨false, abandonLoad code (consumed s), abandonLoad_map _ _, by rw [h, carryOut_map]⟩

theorem takeCommand_mapStep {judge : Bool → State → Answer}
    (hj : ∀ b t, MapStep t.map (judge b t).state.map) (code : Nat) (c : Cell) (s : State) :
    MapStep s.map (takeCommand code c judge s).map := by
  rcases takeCommand_map_cases code c judge s with h | ⟨b, t, ht, h⟩
  · exact .of_eq h
  · rw [h, ← ht]
    exact hj b t

/-- A command whose own rule keeps the map keeps it. -/
theorem takeCommand_map {judge : Bool → State → Answer}
    (hj : ∀ b t, (judge b t).state.map = t.map) (code : Nat) (c : Cell) (s : State) :
    (takeCommand code c judge s).map = s.map := by
  rcases takeCommand_map_cases code c judge s with h | ⟨b, t, ht, h⟩
  · exact h
  · rw [h, hj, ht]

/-! ## The commands' own rules that keep the map -/

theorem nameNode_map (address : Nat) (b : Bool) (s : State) :
    (nameNode address b s).state.map = s.map := by
  unfold nameNode setNode
  split
  · rfl
  · split <;> rfl

theorem setMode_map (state : Nat) (s : State) : (setMode state s).state.map = s.map := by
  unfold setMode setNode
  split
  · rfl
  · split <;> rfl

theorem setTrim_map (n : Nat) (s : State) : (setTrim n s).state.map = s.map := by
  unfold setTrim
  split <;> rfl

theorem changeHorizon_map (n : Nat) (s : State) : (changeHorizon n s).map = s.map := by
  unfold changeHorizon
  dsimp only
  split
  · exact (frontierAdvance_moves _ _).same.map
  · rfl

theorem setHorizon_map (n : Nat) (s : State) : (setHorizon n s).state.map = s.map := by
  unfold setHorizon
  split
  · rfl
  · split
    · rfl
    · exact changeHorizon_map n s

theorem chanWrite_map (channel : Nat) (arg : ChanArg) (s : State) :
    (chanWrite channel arg s).state.map = s.map := by
  unfold chanWrite
  dsimp only
  split
  · rfl
  · split
    · rfl
    · split <;> rfl

theorem chanRead_map (channel : Nat) (item : ChanItem) (s : State) :
    (chanRead channel item s).state.map = s.map := by
  unfold chanRead
  split
  · rfl
  · split <;> rfl

theorem loadOpen_map (target : LoadArg) (first count : Nat) (s : State) :
    (loadOpen target first count s).state.map = s.map := by
  unfold loadOpen
  split
  · rfl
  · split_ifs <;> rfl

theorem loadData_map (words : List Word16) (s : State) : (loadData words s).state.map = s.map := by
  unfold loadData
  dsimp only
  split <;> rfl

theorem tableRead_map (target : ReadArg) (index : Nat) (s : State) :
    (tableRead target index s).state.map = s.map := by
  cases target with
  | lin t =>
    simp only [tableRead]
    split
    · split <;> rfl
    · rfl
  | histogram =>
    simp only [tableRead]
    split <;> rfl
  | other _ => rfl

theorem calRun_map (table channel k timeout emptyLimit : Nat) (s : State) :
    (calRun table channel k timeout emptyLimit s).state.map = s.map := by
  unfold calRun
  dsimp only
  split
  · split_ifs <;> rfl
  · rfl

theorem calCancel_map (s : State) : (calCancel s).state.map = s.map := by
  unfold calCancel
  split <;> rfl

theorem slotSet_map (slot : Nat) (arg : SlotArg) (s : State) :
    (slotSet slot arg s).state.map = s.map := by
  unfold slotSet
  dsimp only
  split
  · rfl
  · split
    · rfl
    · split <;> rfl

theorem applySlot_map (i : Fin 8) (out : SlotOut) (s : State) : (applySlot i out s).map = s.map := by
  unfold applySlot
  rw [refreshSlotMarkers_map, (Moves.foldl (fun s r => publish_moves _ r s) _ _).same.map,
    State.setSlot_map]

theorem slotEvent_map (i : Fin 8) (out : SlotOut) (s : State) : (slotEvent i out s).map = s.map :=
  (settleSlot_moves _ i).same.map.trans (applySlot_map i out s)

theorem armSlot_map (slot : Nat) (s : State) : (armSlot slot s).state.map = s.map := by
  unfold armSlot
  split
  · rfl
  · dsimp only
    split
    · rfl
    · exact slotEvent_map _ _ s

theorem armSlotAt_map (slot time : Nat) (s : State) : (armSlotAt slot time s).state.map = s.map := by
  unfold armSlotAt
  split
  · rfl
  · dsimp only
    split_ifs
    · rfl
    · rfl
    · rfl
    · exact slotEvent_map _ _ s

theorem stopSlot_map (slot : Nat) (s : State) : (stopSlot slot s).state.map = s.map := by
  unfold stopSlot
  split
  · rfl
  · split
    · rfl
    · exact slotEvent_map _ _ s

theorem moveTotal_map (before after : SlotState) (slot : Nat) (s : State) :
    (moveTotal before after slot s).state.map = s.map := by
  unfold moveTotal
  split
  · rfl
  · dsimp only
    split_ifs
    · rfl
    · rfl
    · exact applySlot_map _ _ s

theorem markerCommand_map {α : Type} (n : Nat) (v : Option α) (f : State → α → Marker → Marker)
    (s : State) : (markerCommand n v f s).state.map = s.map := by
  unfold markerCommand
  split
  · rfl
  · dsimp only
    split <;> rfl

/-! ## LOAD-COMMIT, the command that writes the map (R23, R175) -/

theorem commitMap_mapStep (l : LoadBuffer) (s : State) : MapStep s.map (commitMap l s).state.map := by
  unfold commitMap
  dsimp only
  split
  · exact .kept
  · rename_i hc
    split
    · exact .kept
    · exact .committed (by simpa using hc)

theorem commitTable_map (t : Fin 8) (l : LoadBuffer) (s : State) :
    (commitTable t l s).state.map = s.map := by
  unfold commitTable
  dsimp only
  split <;> rfl

theorem commitPlan_map (l : LoadBuffer) (s : State) : (commitPlan l s).state.map = s.map := by
  unfold commitPlan
  split
  · rfl
  · split <;> rfl

theorem loadCommit_mapStep (s : State) : MapStep s.map (loadCommit s).state.map := by
  unfold loadCommit
  dsimp only
  split
  · split
    · exact commitMap_mapStep _ s
    · exact .of_eq (commitTable_map _ _ s)
    · exact .of_eq (commitPlan_map _ s)
  · exact .kept

/-! ## The events -/

theorem confirmFill_map (s : State) : (confirmFill s).map = s.map := by
  unfold confirmFill
  dsimp only
  split <;> rfl

theorem badInLocked_map (s : State) : (badInLocked s).map = s.map := by
  unfold badInLocked
  dsimp only
  split <;> rfl

theorem fillFreeSlot_map (s : State) : (fillFreeSlot s).map = s.map := by
  unfold fillFreeSlot
  split <;> rfl

theorem completeCalibration_map (s : State) : (completeCalibration s).map = s.map := by
  unfold completeCalibration
  dsimp only
  split <;> rfl

theorem calibrationTap_map (c : Fin 16) (fine : Fin 256) (s : State) :
    (calibrationTap c fine s).map = s.map := by
  unfold calibrationTap
  dsimp only
  split_ifs
  · exact completeCalibration_map _
  · rfl
  · rfl

theorem stampEdge_map (c : Fin 16) (label : Sense) (coarse16 : BitVec 16) (fine : Fin 256)
    (lost : Bool) (arrival s : State) :
    (stampEdge c label coarse16 fine lost arrival s).map = s.map := by
  unfold stampEdge
  dsimp only
  split
  · rfl
  · rfl
  · rfl
  · exact (arrive_moves _ _).same.map

theorem channelEdge_map (c : Fin 16) (sense : Sense) (coarse16 : BitVec 16) (fine : Fin 256)
    (lost : Bool) (s : State) : (channelEdge c sense coarse16 fine lost s).map = s.map := by
  unfold channelEdge
  dsimp only
  split_ifs
  · rw [stampEdge_map, calibrationTap_map]
    rfl
  · rfl
  · rfl

theorem stepActions_map (s : State) : (stepActions s).map = s.map := by
  unfold stepActions
  dsimp only
  rw [refreshTimebaseMarkers_map, discardQueue_map, (endSlotsOnStep_moves s).same.map]

theorem takeEpoch_map (e : Coarse) (s : State) : (takeEpoch e s).map = s.map := by
  unfold takeEpoch
  dsimp only
  split
  · rw [raise_map, stepActions_map]
  · split
    · rfl
    · rw [raise_map, stepActions_map]

theorem takePeriodEvent_map (e : PeriodEvent) (s : State) : (takePeriodEvent e s).map = s.map := by
  cases e with
  | updateEnd t =>
    simp only [takePeriodEvent]
    split <;> rfl
  | calTimeout => rfl

theorem takePeriodEvents_map (fuel : Nat) (es : List PeriodEvent) (s : State) :
    (takePeriodEvents fuel es s).map = s.map := by
  induction fuel generalizing es s with
  | zero => rfl
  | succ fuel ih =>
    unfold takePeriodEvents
    split
    · rfl
    · rw [ih, takePeriodEvent_map]

theorem endMarkerPeriod_map (s : State) : (endMarkerPeriod s).map = s.map := by
  unfold endMarkerPeriod
  dsimp only
  rw [showPins_map, (Moves.foldl settleMarker_moves allMarkers s).same.map]

theorem endPeriod_map (s : State) : (endPeriod s).map = s.map := by
  unfold endPeriod
  dsimp only
  rw [endMarkerPeriod_map, takePeriodEvents_map, (frontierAdvance_moves _ _).same.map]
  rfl

theorem reachBoundary_map (k : Boundary) (i : Fin 8) (s : State) :
    (reachBoundary k i s).map = s.map := by
  unfold reachBoundary
  split
  · split
    · rfl
    · exact applySlot_map _ _ s
  · rfl

/-! ## Every row -/

/-- The row answers a next state, and its map is one that `MapStep` allows. -/
def StepsMap (s : State) (o : Host.Outcome State Fault Refusal) : Prop :=
  ∃ t, o = .next t ∧ MapStep s.map t.map

theorem StepsMap.of_eq {s t : State} (h : t.map = s.map) : StepsMap s (.next t) :=
  ⟨t, rfl, .of_eq h⟩

/-- The row of a command whose own rule keeps the map. -/
theorem StepsMap.command {judge : Bool → State → Answer} {code : Nat} {c : Cell} {s : State}
    (hj : ∀ b t, (judge b t).state.map = t.map) : StepsMap s (.next (takeCommand code c judge s)) :=
  .of_eq (takeCommand_map hj code c s)

/-- The row of an event that has an effect only where `p` holds, and keeps the map there. -/
theorem StepsMap.guarded {s t : State} {p : Prop} [Decidable p] (h : t.map = s.map) :
    StepsMap s (.next (if p then t else s)) := by
  split
  · exact .of_eq h
  · exact .of_eq rfl

theorem execTimebaseAdvance_stepsMap (s : State) : StepsMap s (execTimebaseAdvance s) := by
  unfold execTimebaseAdvance
  split
  · exact .of_eq rfl
  · exact .of_eq (endPeriod_map s)

theorem execLinkSilentCellTime_stepsMap (s : State) : StepsMap s (execLinkSilentCellTime s) := by
  unfold execLinkSilentCellTime
  split
  · exact .of_eq rfl
  · split
    · exact .of_eq rfl
    · exact .of_eq rfl
    · exact .of_eq (badInLocked_map s)

theorem execFillCell_stepsMap (s : State) : StepsMap s (execFillCell s) := by
  unfold execFillCell
  split
  · exact .of_eq rfl
  · split
    · exact .of_eq rfl
    · exact .of_eq (confirmFill_map s)
    · exact .of_eq rfl

theorem execTransmitSlotDue_stepsMap (s : State) : StepsMap s (execTransmitSlotDue s) := by
  unfold execTransmitSlotDue
  split
  · exact .of_eq rfl
  · split
    · exact .of_eq rfl
    · exact .of_eq (fillFreeSlot_map _)
    · split
      · exact .of_eq rfl
      · exact .of_eq (fillFreeSlot_map s)

theorem execEdgeCell_stepsMap (c : Cell) (slice : Fin 32) (lane : Fin 4) (sense : Sense)
    (coarse16 : BitVec 16) (fine : Fin 256) (lost : Bool) (s : State) :
    StepsMap s (execEdgeCell c slice lane sense coarse16 fine lost s) := by
  refine .of_eq (receive_map (fun t => ?_) s)
  dsimp only
  split
  · rfl
  · exact channelEdge_map _ _ _ _ _ _
  · exact channelEdge_map _ _ _ _ _ _

theorem execEpochCell_stepsMap (c : Cell) (e : Coarse) (s : State) :
    StepsMap s (execEpochCell c e s) := by
  refine .of_eq (receive_map (fun t => ?_) s)
  rw [takeEpoch_map, pushSlot_map]

theorem execTableUpdateEnd_stepsMap (t : Fin 8) (s : State) :
    StepsMap s (execTableUpdateEnd t s) := by
  unfold execTableUpdateEnd
  split
  · split <;> exact .of_eq rfl
  · exact .of_eq rfl

theorem execIdent_stepsMap (c : Cell) (item : Nat) (s : State) : StepsMap s (execIdent c item s) := by
  refine .command fun _ t => ?_
  split <;> rfl

theorem execStatus_stepsMap (c : Cell) (item : StatusItem) (s : State) :
    StepsMap s (execStatus c item s) := by
  refine .command fun _ t => ?_
  split <;> rfl

theorem execSlotGet_stepsMap (c : Cell) (slot : Nat) (item : SlotItem) (s : State) :
    StepsMap s (execSlotGet c slot item s) := by
  refine .command fun _ t => ?_
  split
  · rfl
  · split <;> rfl

theorem execQueueSet_stepsMap (c : Cell) (threshold : Nat) (s : State) :
    StepsMap s (execQueueSet c threshold s) := by
  refine .command fun _ t => ?_
  split <;> rfl

/-- A NODE-RESET that is carried out takes the map to its power-on value (R177). -/
theorem execNodeReset_stepsMap (c : Cell) (s : State) : StepsMap s (execNodeReset c s) :=
  ⟨_, rfl, takeCommand_mapStep (fun _ _ => .powerOn) 3 c s⟩

theorem execLoadCommit_stepsMap (c : Cell) (s : State) : StepsMap s (execLoadCommit c s) :=
  ⟨_, rfl, takeCommand_mapStep (fun _ t => loadCommit_mapStep t) 12 c s⟩

/-- Every row answers a next state whose map is kept, at its power-on value, or free of conflicts. -/
theorem exec_stepsMap (i : Instr) (s : State) : StepsMap s (exec i s) := by
  cases i with
  -- the resets and the commit of a load, which write the map
  | powerOnReset => exact ⟨_, rfl, .powerOn⟩
  | nodeReset c => exact execNodeReset_stepsMap c s
  | loadCommit c => exact execLoadCommit_stepsMap c s
  -- the receiver, the transmit link and time
  | resetRelease => exact .of_eq rfl
  | timebaseAdvance => exact execTimebaseAdvance_stepsMap s
  | huntCellStart _ => exact .guarded rfl
  | confirmingFillCell => exact .guarded (confirmFill_map s)
  | confirmingOtherCell => exact .guarded rfl
  | linkSilentCellTime => exact execLinkSilentCellTime_stepsMap s
  | fillCell => exact execFillCell_stepsMap s
  | badCell => exact execLinkSilentCellTime_stepsMap s
  | relayCell c => exact .of_eq (receive_map (pushSlot_map (.relay c)) s)
  | edgeCell c slice lane sense coarse16 fine lost =>
    exact execEdgeCell_stepsMap c slice lane sense coarse16 fine lost s
  | epochCell c e => exact execEpochCell_stepsMap c e s
  | transmitSlotDue => exact execTransmitSlotDue_stepsMap s
  -- the events of the blocks
  | armPointReached i => exact .of_eq (reachBoundary_map _ i s)
  | gateCloseReached i => exact .of_eq (reachBoundary_map _ i s)
  | closeTimeoutExpiry i => exact .of_eq (reachBoundary_map _ i s)
  | planStepEnd i => exact .of_eq (reachBoundary_map _ i s)
  | tableUpdateEnd t => exact execTableUpdateEnd_stepsMap t s
  | calCompletion => exact .guarded (completeCalibration_map s)
  | calTimeout => exact .guarded rfl
  | markerHoldExpiry _ => exact .guarded rfl
  | donePulseEnd _ => exact .guarded rfl
  -- the commands of the node and the Command Unit
  | name _ address => exact .command (nameNode_map address)
  | mode _ state => exact .command fun _ => setMode_map state
  | ident c item => exact execIdent_stepsMap c item s
  | status c item => exact execStatus_stepsMap c item s
  | clear _ _ _ => exact .command fun _ _ => rfl
  | attnSet _ _ _ _ => exact .command fun _ _ => rfl
  | unknownCommand _ _ => exact .command fun _ _ => rfl
  -- the commands of the Timebase and the channels
  | timeSetHorizon _ n => exact .command fun _ => setHorizon_map n
  | timeSetTrim _ n => exact .command fun _ => setTrim_map n
  | timeSetReport _ => exact .command fun _ _ => rfl
  | timeSetCount _ => exact .command fun _ _ => rfl
  | chanWrite _ channel arg => exact .command fun _ => chanWrite_map channel arg
  | chanRead _ channel item => exact .command fun _ => chanRead_map channel item
  -- the other load commands, the tables and the calibration
  | loadOpen _ target first count => exact .command fun _ => loadOpen_map target first count
  | loadData _ words => exact .command fun _ => loadData_map words
  | loadCancel _ => exact .command fun _ => emptyLoad_map
  | tableRead _ target index => exact .command fun _ => tableRead_map target index
  | calRun _ table channel k timeout emptyLimit =>
    exact .command fun _ => calRun_map table channel k timeout emptyLimit
  | calCancel _ => exact .command fun _ => calCancel_map
  -- the commands of the slots, the markers and the Result Queue
  | slotSet _ slot arg => exact .command fun _ => slotSet_map slot arg
  | slotGet c slot item => exact execSlotGet_stepsMap c slot item s
  | arm _ slot => exact .command fun _ => armSlot_map slot
  | armAt _ slot time => exact .command fun _ => armSlotAt_map slot time
  | stop _ slot => exact .command fun _ => stopSlot_map slot
  | hold _ slot => exact .command fun _ => moveTotal_map _ _ slot
  | resume _ slot => exact .command fun _ => moveTotal_map _ _ slot
  | markSetSource _ marker _ => exact .command fun _ => markerCommand_map marker _ _
  | markSetInvert _ marker _ => exact .command fun _ => markerCommand_map marker _ _
  | markSetWidth _ marker _ => exact .command fun _ => markerCommand_map marker _ _
  | markLevel _ marker _ => exact .command fun _ => markerCommand_map marker _ _
  | queueSet c threshold => exact execQueueSet_stepsMap c threshold s

/-- All that a step can do to the map. -/
theorem step_mapStep {s t : State} (h : step s = .next t) : MapStep s.map t.map := by
  unfold step at h
  split at h
  · cases h
    exact .kept
  · rename_i i others _
    obtain ⟨u, hu, hm⟩ := exec_stepsMap i { s with pending := others }
    cases hu.symm.trans h
    exact hm

/-- Settles O56: the map a step leaves is the one it found, the power-on map, or one that passed the
CONFLICT check (`step_mapStep`), and each of these is sound (`MapStep.keeps_mapSound`). -/
theorem everyStepKeepsTheMapSound : Obligations.EveryStepKeepsTheMapSound := by
  unfold Obligations.EveryStepKeepsTheMapSound
  intro s t hs h
  exact (step_mapStep h).keeps_mapSound hs

end Sys2Proof.Machine
end

section
/-!
SUPPORT. The measurement arithmetic (R117, R119 to R123) and where its marks are recorded as SATURATED
(R133): the values of the formulas, and the saturated bit of the run flags and of a result's record.
-/

namespace Sys2Proof.Machine

/-! ## The values of the formulas -/

/-- A whole number is not passed when it is divided by 1 or more and rounded half up (R117). -/
theorem roundedHalfUp_le_self (n : Nat) {d : Nat} (hd : 1 ≤ d) : roundedHalfUp n d ≤ n := by
  have hn : n ≤ n * d := Nat.le_mul_of_pos_right n hd
  refine Nat.le_of_lt_succ ((Nat.div_lt_iff_lt_mul (by omega)).mpr ?_)
  calc 2 * n + d < 2 * (n * d) + 2 * d := by omega
    _ = (n + 1) * (2 * d) := by ring

/-- F is the rounded quotient, held to 2^64 − 1 and marked where it would pass it (R120). -/
theorem frequency_eq (np t : Nat) :
    frequency np t =
      if (2 * np * 1024000000000000 + t) / (2 * t) ≤ 2 ^ 64 - 1 then
        ((2 * np * 1024000000000000 + t) / (2 * t), false)
      else (2 ^ 64 - 1, true) := by
  simp only [frequency, roundedHalfUp, Config.fuPerSecondMilli, ← Nat.mul_assoc, ← Nat.not_le,
    ite_not]

/-- Q is the rounded quotient of 256 × T by NP (R121). -/
theorem meanPeriod_eq (np t : Nat) : meanPeriod np t = (2 * 256 * t + np) / (2 * np) := by
  rw [meanPeriod, roundedHalfUp, ← Nat.mul_assoc]

/-- The greatest T bounds Q: it is met at NP = 1 (R121). -/
theorem meanPeriod_le {np t : Nat} (hnp : 1 ≤ np) (ht : t ≤ 2 ^ 58 - 1) :
    meanPeriod np t ≤ 2 ^ 66 - 256 :=
  calc meanPeriod np t ≤ 256 * t := roundedHalfUp_le_self _ hnp
    _ ≤ 2 ^ 66 - 256 := by omega

/-- T is the difference of the stamps where that is positive (R119). -/
theorem rateSpan_of_pos {t0 t1 : Stamp} (h : 0 < stampDiff t1 t0) :
    rateSpan t0 t1 = ((stampDiff t1 t0).toNat, false) := if_pos h

/-- A sample in its range is the difference itself (R123). -/
theorem intervalSample_in_range {a b : Stamp} {n : Nat} (hlo : 1 ≤ n) (hhi : n ≤ 2 ^ 56 - 1)
    (h : stampDiff b a = n) : intervalSample a b = (n, false) := by
  have hrange : 0 < stampDiff b a ∧ stampDiff b a < 2 ^ 56 := by omega
  rw [intervalSample, if_pos hrange, h, Int.toNat_natCast]

/-- A sample out of its range is taken as 2^56 − 1 and marked (R123). -/
theorem intervalSample_out_of_range {a b : Stamp} (h : 2 ^ 56 ≤ stampDiff b a ∨ stampDiff b a ≤ 0) :
    intervalSample a b = (2 ^ 56 - 1, true) :=
  if_neg (by omega : ¬(0 < stampDiff b a ∧ stampDiff b a < 2 ^ 56))

/-! ## Where SATURATED is recorded -/

@[simp] theorem RunFlags.use_saturated (f : RunFlags) (m : EdgeMarks) :
    (f.use m).saturated = f.saturated := rfl

@[simp] theorem RunFlags.saturatedIf_saturated (f : RunFlags) (b : Bool) :
    (f.saturatedIf b).saturated = (f.saturated || b) := rfl

@[simp] theorem Slot.withFlags_flags (x : Slot) (f : RunFlags → RunFlags) :
    (x.withFlags f).run.flags = f x.run.flags := rfl

@[simp] theorem Slot.withFlags_gateIndex (x : Slot) (f : RunFlags → RunFlags) :
    (x.withFlags f).run.gateIndex = x.run.gateIndex := rfl

/-- A record is SATURATED where the run was, or where the gate index stands at its limit (R109, R126). -/
@[simp] theorem Slot.emit_saturated (i : Fin 8) (v : Bool) (b : RecordBody) (x : Slot) :
    (x.emit i v b).2.flags.saturated =
      (x.run.flags.saturated || x.run.gateIndex == Config.maxGateIndex) := rfl

/-- A RATE record takes in the marks of T and of F beside those of the run (R119, R120). -/
theorem Slot.emitRate_saturated (i : Fin 8) (t1 : Stamp) (x : Slot) :
    (x.emitRate i t1).2.flags.saturated =
      (x.run.flags.saturated ||
        ((rateSpan (x.run.t0.getD 0) t1).2 ||
          (frequency (x.run.n * x.run.prescale) (rateSpan (x.run.t0.getD 0) t1).1).2) ||
        x.run.gateIndex == Config.maxGateIndex) := by
  simp [Slot.emitRate]

/-- A batch takes in the marks of its sample and of its sum (R122, R123). -/
theorem Slot.recordSample_saturated (a : PendingA) (e : Edge) (x : Slot) :
    (x.recordSample a e).run.flags.saturated =
      (x.run.flags.saturated ||
        ((intervalSample a.stamp e.stamp).2 ||
          (addSample x.run.sum (intervalSample a.stamp e.stamp).1).2)) := by
  simp [Slot.recordSample]

/-- The mark of F stands in the flags of the result (R120). -/
theorem Slot.emitRate_saturated_of_frequency (i : Fin 8) {t0 t1 : Stamp} {x : Slot}
    (ht : x.run.t0 = some t0) (hpos : 0 < stampDiff t1 t0)
    (hf : (frequency (x.run.n * x.run.prescale) (stampDiff t1 t0).toNat).2 = true) :
    (x.emitRate i t1).2.flags.saturated = true := by
  rw [Slot.emitRate_saturated, ht, Option.getD_some, rateSpan_of_pos hpos, hf]
  simp

/-- The mark of a sample stands in the flags of its batch (R123). -/
theorem Slot.recordSample_saturated_of_sample {a : PendingA} {e : Edge} (x : Slot)
    (h : (intervalSample a.stamp e.stamp).2 = true) :
    (x.recordSample a e).run.flags.saturated = true := by
  rw [Slot.recordSample_saturated, h]
  simp

/-- Settles O49: the formulas of R120, R121 and R123 with their bounds, and the flags that their marks
reach. -/
theorem formulasOfTheArithmetic : Obligations.FormulasOfTheArithmetic := by
  unfold Obligations.FormulasOfTheArithmetic
  refine ⟨fun np t hnp _ ht => ⟨frequency_eq np t, meanPeriod_eq np t, meanPeriod_le hnp ht⟩,
    fun a b => ⟨fun n hlo hhi h => intervalSample_in_range hlo hhi h,
      intervalSample_out_of_range, fun i m e x => ⟨?_, ?_⟩⟩⟩
  · exact Slot.emitRate_saturated_of_frequency i
  · rintro rfl h
    exact Slot.recordSample_saturated_of_sample x h

end Sys2Proof.Machine
end

section
/-!
SUPPORT. QUEUE-SET (R143): the two answers of its rule, split at the range 1 to 512 of a HIGH threshold.
-/

namespace Sys2Proof.Machine

/-- A value is in a range where neither end cuts it off. -/
theorem between_iff {lo hi v : Nat} : between lo hi v = true ↔ lo ≤ v ∧ v ≤ hi := by
  rw [between, Bool.and_eq_true, decide_eq_true_iff, decide_eq_true_iff]

/-- A threshold outside the range leaves the queue as it is, and the reply shows the one in force (R143). -/
theorem exec_queueSet_of_out_of_range {c : Cell} {n : Nat} {s : State} (h : TakesQuietly s c)
    (hn : ¬ between 1 Config.resultCells n = true) :
    exec (.queueSet c n) s = .next (replied c .range
      [num 10 s.results.threshold, num 10 s.results.occupancy, num 16 s.results.gaps]
      (consumed s)) := by
  change execQueueSet c n s = _
  rw [execQueueSet, takeCommand_quiet h]
  dsimp only
  rw [if_neg hn]
  rfl

/-- A threshold in the range is written, the records and the gap count stay, and the reply shows it (R143). -/
theorem exec_queueSet_of_in_range {c : Cell} {n : Nat} {s : State} (h : TakesQuietly s c)
    (hn : between 1 Config.resultCells n = true) :
    exec (.queueSet c n) s = .next (replied c .done
      [num 10 n, num 10 s.results.occupancy, num 16 s.results.gaps]
      { consumed s with results := { s.results with threshold := n } }) := by
  change execQueueSet c n s = _
  rw [execQueueSet, takeCommand_quiet h]
  dsimp only
  rw [if_pos hn]
  rfl

/-- Settles O53: the rule of QUEUE-SET on either side of its range (`exec_queueSet_of_out_of_range`,
`exec_queueSet_of_in_range`). -/
theorem queueSetSetsTheThreshold : Obligations.QueueSetSetsTheThreshold := by
  unfold Obligations.QueueSetSetsTheThreshold
  intro c n s h
  constructor
  · intro hout
    refine exec_queueSet_of_out_of_range h fun hb => ?_
    have hin : 1 ≤ n ∧ n ≤ 512 := between_iff.mp hb
    omega
  · intro h1 h512
    exact exec_queueSet_of_in_range h (between_iff.mpr ⟨h1, h512⟩)

end Sys2Proof.Machine
end

section
/-!
SUPPORT. LOAD-DATA (R174): what a load buffer is after words are appended, below the expected count and at
it, and the command's answer by the number of words taken.
-/

namespace Sys2Proof.Machine

/-! ## A buffer with words appended -/

/-- Words that do not reach the expected count are all appended, and the buffer stays as it was. -/
theorem LoadBuffer.take_of_lt {l : LoadBuffer} {words : List Word16}
    (h : words.length < l.expected - l.words.length) :
    l.take words = { l with words := l.words ++ words } := by
  have hbelow : ¬ l.expected ≤ (l.words ++ words).length := by
    rw [List.length_append]; omega
  rw [LoadBuffer.take, List.take_of_length_le h.le, if_neg hbelow]

/-- Words that reach the expected count fill the buffer, and those past it are dropped. -/
theorem LoadBuffer.take_of_le {l : LoadBuffer} {words : List Word16}
    (h : l.expected - l.words.length ≤ words.length) :
    l.take words =
      { l with words := l.words ++ words.take (l.expected - l.words.length), phase := .full } := by
  have hreached :
      l.expected ≤ (l.words ++ words.take (l.expected - l.words.length)).length := by
    rw [List.length_append, List.length_take_of_le h]; omega
  rw [LoadBuffer.take, if_pos hreached]

/-- The words taken are those for which the buffer has room. -/
theorem LoadBuffer.take_words_length (l : LoadBuffer) (words : List Word16) :
    (l.take words).words.length =
      l.words.length + min (l.expected - l.words.length) words.length := by
  rw [LoadBuffer.take, List.length_append, List.length_take]

/-! ## The command -/

/-- LOAD-DATA keeps an OPEN load (R176), so that its own rule judges the buffer as it stands. -/
theorem exec_loadData {c : Cell} {s : State} (h : Takes s c) (words : List Word16) :
    exec (.loadData c words) s =
      .next (replied c (loadData words (consumed s)).code (loadData words (consumed s)).fields
        (loadData words (consumed s)).state) := by
  change execLoadData c words s = _
  rw [execLoadData, takeCommand_keeps h rfl]

/-- A buffer that is not OPEN refuses the words SEQUENCE (R174). -/
theorem exec_loadData_of_not_opened {c : Cell} {s : State} (h : Takes s c) (words : List Word16)
    (hl : s.command.load.phase ≠ .opened) :
    exec (.loadData c words) s = .next (replied c .sequence [] (consumed s)) := by
  have hrule : loadData words (consumed s) = .still (consumed s) .sequence := if_neg hl
  rw [exec_loadData h, hrule]
  rfl

/-- An OPEN buffer takes `n` of the words: the reply carries `n` and the total, and the code says whether
these are all the words of the cell (R174). -/
theorem exec_loadData_of_opened {c : Cell} {s : State} {words : List Word16} {n : Nat} (h : Takes s c)
    (hl : s.command.load.phase = .opened)
    (hn : min (s.command.load.expected - s.command.load.words.length) words.length = n) :
    exec (.loadData c words) s =
      .next (replied c (if n = words.length then .done else .range)
        [num 2 n, num 7 (s.command.load.words.length + n)]
        { consumed s with command := { s.command with load := s.command.load.take words } }) := by
  have htotal : (s.command.load.take words).words.length = s.command.load.words.length + n := by
    rw [LoadBuffer.take_words_length, hn]
  have hrule : loadData words (consumed s) =
      ⟨{ consumed s with command := { s.command with load := s.command.load.take words } },
        if n = words.length then .done else .range,
        [num 2 n, num 7 (s.command.load.words.length + n)]⟩ := by
    have hload : (consumed s).command = s.command := rfl
    simp only [loadData, hload, hl, htotal, if_true, Nat.add_sub_cancel_left]
  rw [exec_loadData h, hrule]

/-- Settles O31: the refusal of a buffer that is not OPEN, and of an OPEN one the answer and the buffer by
how the words of the cell compare with the room left. -/
theorem loadDataFillsTheBuffer : Obligations.LoadDataFillsTheBuffer := by
  unfold Obligations.LoadDataFillsTheBuffer
  intro c words s h _
  refine ⟨exec_loadData_of_not_opened h words,
    fun hl _ => ⟨fun hlt => ?_, fun heq => ?_, fun hgt => ?_⟩⟩
  · rw [exec_loadData_of_opened h hl (min_eq_right hlt.le), if_pos rfl, LoadBuffer.take_of_lt hlt]
  · rw [exec_loadData_of_opened h hl (min_eq_left heq.ge), if_pos heq.symm,
      LoadBuffer.take_of_le heq.ge, List.take_of_length_le heq.le]
  · rw [exec_loadData_of_opened h hl (min_eq_left hgt.le), if_neg hgt.ne,
      LoadBuffer.take_of_le hgt.le]

end Sys2Proof.Machine
end

section
/-!
SUPPORT. The order of the Ordering Queue (R75, R76, R79 to R82): stamps that lie ahead of W by less than half the
circle of stamps compare by how far ahead they lie, so that a release moves W to the stamp of the first entry and
leaves the others ahead of it.
-/

namespace Sys2Proof.Machine

/-! ## Stamps ahead of a mark (R3) -/

/-- How far stamp `x` lies ahead of `w` on the circle of stamps, in fine units. -/
def aheadOf (w x : Stamp) : Nat := (x - w).toNat

/-- A stamp is later than a mark where it lies ahead of it by less than half the circle (R3). -/
theorem later_iff {w x : Stamp} : later x w = true ↔ 0 < aheadOf w x ∧ aheadOf w x < 2 ^ 58 := by
  have hlt := (x - w).isLt
  rw [later, decide_eq_true_iff, stampDiff, BitVec.toInt_eq_toNat_cond, aheadOf]
  split <;> omega

/-- Of two stamps, the one from which the other lies ahead of a mark by more is not the earlier one. -/
theorem earlier_iff_aheadOf {w x y : Stamp} (hx : aheadOf w x < 2 ^ 58) (hy : aheadOf w y < 2 ^ 58) :
    earlier x y = true ↔ aheadOf w x < aheadOf w y := by
  have hlt := (x - y).isLt
  rw [earlier, decide_eq_true_iff, stampDiff, BitVec.toInt_eq_toNat_cond]
  simp only [aheadOf, BitVec.toNat_sub] at *
  split <;> omega

/-- Stamps that lie as far ahead of a mark are one stamp. -/
theorem aheadOf_inj {w x y : Stamp} : aheadOf w x = aheadOf w y ↔ x = y := by
  constructor
  · intro h
    apply BitVec.eq_of_toNat_eq
    simp only [aheadOf, BitVec.toNat_sub] at h
    omega
  · rintro rfl
    rfl

/-- Ahead of a stamp that itself lies ahead of a mark, the rest of the way. -/
theorem aheadOf_of_le {w x y : Stamp} (h : aheadOf w x ≤ aheadOf w y) :
    aheadOf x y = aheadOf w y - aheadOf w x := by
  simp only [aheadOf, BitVec.toNat_sub] at *
  omega

theorem aheadOf_self (w : Stamp) : aheadOf w w = 0 := by simp [aheadOf]

/-- The order of the queue, for edges that lie ahead of a mark (R76): by stamp, then by channel. -/
theorem beforeInQueue_iff {w : Stamp} {a b : Edge} (ha : aheadOf w a.stamp < 2 ^ 58)
    (hb : aheadOf w b.stamp < 2 ^ 58) :
    beforeInQueue a b = true ↔
      aheadOf w a.stamp < aheadOf w b.stamp ∨
        (aheadOf w a.stamp = aheadOf w b.stamp ∧ a.channel.val < b.channel.val) := by
  simp only [beforeInQueue, Bool.or_eq_true, Bool.and_eq_true, decide_eq_true_eq, beq_iff_eq,
    earlier_iff_aheadOf ha hb, aheadOf_inj]

/-! ## Edges that wait for their release -/

/-- The edges of a list lie at or ahead of mark `w`, none behind the one before it. -/
def WaitsFor (w : Stamp) (es : List Edge) : Prop :=
  (∀ e ∈ es, aheadOf w e.stamp < 2 ^ 58) ∧
    es.Pairwise fun a b => aheadOf w a.stamp ≤ aheadOf w b.stamp

/-- The entries of a sound queue wait for W. -/
theorem waitsFor_of_order {w : Stamp} {es : List Edge} (hlater : ∀ e ∈ es, later e.stamp w = true)
    (horder : es.Pairwise fun a b => beforeInQueue b a = false) : WaitsFor w es := by
  have hahead : ∀ e ∈ es, aheadOf w e.stamp < 2 ^ 58 := fun e he => (later_iff.mp (hlater e he)).2
  refine ⟨hahead, horder.imp_of_mem fun {a b} ha hb h => ?_⟩
  have hnot := mt (beforeInQueue_iff (hahead b hb) (hahead a ha)).mpr (by simp [h])
  omega

/-- When W comes to the first of the waiting edges, the others wait on. -/
theorem WaitsFor.tail {w : Stamp} {e : Edge} {es : List Edge} (h : WaitsFor w (e :: es)) :
    WaitsFor e.stamp es := by
  obtain ⟨hahead, hpair⟩ := h
  obtain ⟨hfirst, hpair⟩ := List.pairwise_cons.mp hpair
  refine ⟨fun x hx => ?_, hpair.imp_of_mem fun {a b} ha hb hab => ?_⟩
  · have := hahead x (by simp [hx])
    rw [aheadOf_of_le (hfirst x hx)]
    omega
  · rw [aheadOf_of_le (hfirst a ha), aheadOf_of_le (hfirst b hb)]
    omega

/-- The release of the first waiting edge moves W to its stamp (R82). -/
theorem release_mark {s : State} {e : Edge} {es : List Edge} (h : WaitsFor s.queue.mark (e :: es)) :
    (release s e).queue.mark = e.stamp := by
  have hlt := h.1 e (by simp)
  rw [release_queue]
  split
  · rfl
  · rename_i hn
    rw [later_iff] at hn
    have hzero : aheadOf s.queue.mark e.stamp = aheadOf s.queue.mark s.queue.mark := by
      rw [aheadOf_self]; omega
    exact (aheadOf_inj.mp hzero).symm

/-- Releases in queue order leave W at the last released stamp, and the rest waiting for it (R82). -/
theorem foldl_release_mark {kept : List Edge} (out : List Edge) {s : State}
    (h : WaitsFor s.queue.mark (out ++ kept)) :
    WaitsFor (out.foldl release s).queue.mark kept ∧
      ((out = [] ∧ (out.foldl release s).queue.mark = s.queue.mark) ∨
        ∃ e ∈ out, (out.foldl release s).queue.mark = e.stamp) := by
  induction out generalizing s with
  | nil => exact ⟨h, .inl ⟨rfl, rfl⟩⟩
  | cons e out ih =>
    have hmark := release_mark h
    have hrest : WaitsFor (release s e).queue.mark (out ++ kept) := hmark ▸ h.tail
    obtain ⟨hwaits, hlast⟩ := ih hrest
    rw [List.foldl_cons]
    refine ⟨hwaits, .inr ?_⟩
    rcases hlast with ⟨-, hsame⟩ | ⟨x, hx, hsame⟩
    · exact ⟨e, by simp, hsame.trans hmark⟩
    · exact ⟨x, by simp [hx], hsame⟩

/-- Where the first of the waiting edges is later than a stamp `f` that W comes to, so are all, and where W
stays because `f` is not later than it, they are later than W (R81). -/
theorem WaitsFor.later_of_first {m f : Stamp} {k x : Edge} {ks : List Edge} (h : WaitsFor m (k :: ks))
    (hk : later k.stamp f = true) (hm : later k.stamp m = true ∨ notLater m f = true)
    (hx : x ∈ k :: ks) : later x.stamp (if later f m then f else m) = true := by
  have hxm := h.1 x hx
  have hkm := h.1 k (by simp)
  have hkx : aheadOf m k.stamp ≤ aheadOf m x.stamp := by
    rcases List.mem_cons.mp hx with rfl | hx'
    · exact le_rfl
    · exact (List.pairwise_cons.mp h.2).1 x hx'
  rw [notLater, Bool.not_eq_true', ← Bool.not_eq_true] at hm
  split
  · rename_i hf
    simp only [later_iff, aheadOf, BitVec.toNat_sub] at *
    omega
  · rename_i hf
    simp only [later_iff, aheadOf, BitVec.toNat_sub] at *
    omega

/-! ## The queue after an arrival and after a frontier advance -/

theorem insertEdge_mem {e x : Edge} {es : List Edge} : x ∈ insertEdge e es ↔ x = e ∨ x ∈ es := by
  induction es with
  | nil => simp [insertEdge]
  | cons y ys ih =>
    unfold insertEdge
    split
    · simp
    · simp only [List.mem_cons, ih]
      tauto

/-- An edge takes its place in queue order (R79). -/
theorem insertEdge_pairwise {w : Stamp} {e : Edge} {es : List Edge}
    (he : aheadOf w e.stamp < 2 ^ 58) (hes : ∀ x ∈ es, aheadOf w x.stamp < 2 ^ 58)
    (h : es.Pairwise fun a b => beforeInQueue b a = false) :
    (insertEdge e es).Pairwise fun a b => beforeInQueue b a = false := by
  induction es with
  | nil => simp [insertEdge]
  | cons y ys ih =>
    obtain ⟨hy, hys⟩ := List.pairwise_cons.mp h
    have hya := hes y (by simp)
    unfold insertEdge
    split
    · rename_i hbefore
      rw [beforeInQueue_iff he hya] at hbefore
      refine List.pairwise_cons.mpr ⟨fun x hx => ?_, h⟩
      have hxa := hes x hx
      rw [← Bool.not_eq_true, beforeInQueue_iff hxa he]
      rcases List.mem_cons.mp hx with rfl | hx'
      · omega
      · have hxy := hy x hx'
        rw [← Bool.not_eq_true, beforeInQueue_iff hxa hya] at hxy
        omega
    · rename_i hbefore
      refine List.pairwise_cons.mpr ⟨fun x hx => ?_, ih (fun x hx => hes x (by simp [hx])) hys⟩
      rcases insertEdge_mem.mp hx with rfl | hx'
      · simpa using hbefore
      · exact hy x hx'

/-- A queue with an edge later than W at its place in order is in order. -/
theorem insertEdge_ordered {q : OrderingQueue} {e : Edge} (h : OrderSound q)
    (he : later e.stamp q.mark = true) :
    (∀ x ∈ insertEdge e q.entries, later x.stamp q.mark = true) ∧
      (insertEdge e q.entries).Pairwise fun a b => beforeInQueue b a = false := by
  obtain ⟨-, hlater, hpair⟩ := h
  refine ⟨fun x hx => ?_, insertEdge_pairwise (later_iff.mp he).2
    (fun x hx => (later_iff.mp (hlater x hx)).2) hpair⟩
  rcases insertEdge_mem.mp hx with rfl | hx'
  · exact he
  · exact hlater x hx'

theorem dropWhile_head_not {α : Type} {p : α → Bool} {l ks : List α} {k : α}
    (h : l.dropWhile p = k :: ks) : p k = false := by
  have := List.head?_dropWhile_not p l
  simpa [h] using this

/-- A frontier advance keeps the queue in order and its entries later than W (R81). -/
theorem frontierAdvance_orderSound (f : Stamp) {s : State} (h : OrderSound s.queue) :
    OrderSound (frontierAdvance f s).queue := by
  obtain ⟨hlen, hlater, hpair⟩ := h
  let p : Edge → Bool := fun e => notLater e.stamp f
  have hentries : (frontierAdvance f s).queue.entries = s.queue.entries.dropWhile p :=
    frontierAdvance_entries f s
  have hsub : (s.queue.entries.dropWhile p).Sublist s.queue.entries := List.dropWhile_sublist p
  refine ⟨?_, ?_, ?_⟩
  · rw [hentries]
    exact hsub.length_le.trans hlen
  · let s0 : State := { s with queue := { s.queue with entries := s.queue.entries.dropWhile p } }
    have hwaits : WaitsFor s0.queue.mark
        (s.queue.entries.takeWhile p ++ s.queue.entries.dropWhile p) := by
      rw [List.takeWhile_append_dropWhile]
      exact waitsFor_of_order hlater hpair
    obtain ⟨hkept, hlast⟩ := foldl_release_mark _ hwaits
    have hmark : (frontierAdvance f s).queue.mark =
        if later f ((s.queue.entries.takeWhile p).foldl release s0).queue.mark then f
        else ((s.queue.entries.takeWhile p).foldl release s0).queue.mark := by
      show (moveMark f _).queue.mark = _
      rw [moveMark_queue]
      split <;> rfl
    rw [hentries, hmark]
    intro x hx
    match hd : s.queue.entries.dropWhile p with
    | [] => simp [hd] at hx
    | k :: ks =>
      rw [hd] at hx hkept
      have hkf : later k.stamp f = true := by
        simpa [p, notLater] using dropWhile_head_not hd
      refine hkept.later_of_first hkf ?_ hx
      rcases hlast with ⟨-, hsame⟩ | ⟨e, he, hsame⟩
      · rw [hsame]
        exact .inl (hlater k (hsub.subset (by rw [hd]; simp)))
      · rw [hsame]
        exact .inr (List.mem_takeWhile_imp (p := p) he)
  · rw [hentries]
    exact hpair.sublist hsub

theorem OrderingQueue.ext_of {q : OrderingQueue} {es : List Edge} {w : Stamp} (he : q.entries = es)
    (hw : q.mark = w) : q = { entries := es, mark := w } := by
  rw [← he, ← hw]

/-- A forced release touches the queue by its releases alone (R80). -/
theorem forcedRelease_queue {e first : Edge} {rest : List Edge} {s : State}
    (h : insertEdge e s.queue.entries = first :: rest) :
    (forcedRelease e s).queue =
      ((first :: rest.takeWhile fun x => x.stamp == first.stamp).foldl release
        { s with
          queue :=
            { s.queue with entries := rest.dropWhile fun x => x.stamp == first.stamp } }).queue := by
  rw [forcedRelease, h]
  simp only [recordFlag_queue, raise_queue]

/-- The releases of the first candidate and of those with its stamp bring W there, and those that are kept are
later (R80, R82). -/
theorem foldl_release_first {first : Edge} {rest : List Edge} {s : State}
    (hs : s.queue.entries = rest.dropWhile fun x => x.stamp == first.stamp)
    (h : WaitsFor s.queue.mark (first :: rest)) :
    ((first :: rest.takeWhile fun x => x.stamp == first.stamp).foldl release s).queue =
        { entries := s.queue.entries, mark := first.stamp } ∧
      ∀ x ∈ s.queue.entries, later x.stamp first.stamp = true := by
  rw [← List.takeWhile_append_dropWhile (p := fun x => x.stamp == first.stamp) (l := rest),
    ← List.cons_append, ← hs] at h
  obtain ⟨hkept, hlast⟩ := foldl_release_mark _ h
  have hmark : ((first :: rest.takeWhile fun x => x.stamp == first.stamp).foldl release
      s).queue.mark = first.stamp := by
    rcases hlast with ⟨hnil, -⟩ | ⟨x, hx, hsame⟩
    · cases hnil
    · rcases List.mem_cons.mp hx with rfl | hx'
      · exact hsame
      · rw [hsame]
        exact eq_of_beq (List.mem_takeWhile_imp (p := fun x : Edge => x.stamp == first.stamp) hx')
  have hentries := foldl_release_entries (first :: rest.takeWhile fun x => x.stamp == first.stamp) s
  refine ⟨OrderingQueue.ext_of hentries hmark, fun x hx => ?_⟩
  rw [hmark] at hkept
  match hd : s.queue.entries with
  | [] => simp [hd] at hx
  | k :: ks =>
    rw [hd] at hx hkept hs
    have hne : k.stamp ≠ first.stamp := by simpa using dropWhile_head_not hs.symm
    have hk := mt (aheadOf_inj (w := first.stamp)).mp hne
    rw [aheadOf_self] at hk
    have hkx : aheadOf first.stamp k.stamp ≤ aheadOf first.stamp x.stamp := by
      rcases List.mem_cons.mp hx with rfl | hx'
      · exact le_rfl
      · exact (List.pairwise_cons.mp hkept.2).1 x hx'
    exact later_iff.mpr ⟨by omega, hkept.1 x hx⟩

/-- A forced release leaves at most 256 entries, in order and later than W (R80). -/
theorem forcedRelease_orderSound {e : Edge} {s : State} (h : OrderSound s.queue)
    (he : later e.stamp s.queue.mark = true) : OrderSound (forcedRelease e s).queue := by
  obtain ⟨hlater, hpair⟩ := insertEdge_ordered h he
  have hlength := insertEdge_length e s.queue.entries
  match hins : insertEdge e s.queue.entries with
  | [] => simp [hins] at hlength
  | first :: rest =>
    rw [hins] at hlater hpair hlength
    have hsub : (rest.dropWhile fun x : Edge => x.stamp == first.stamp).Sublist rest :=
      List.dropWhile_sublist _
    rw [forcedRelease_queue hins]
    have hreleased := foldl_release_first
      (s := { s with
        queue := { s.queue with entries := rest.dropWhile fun x => x.stamp == first.stamp } })
      rfl (waitsFor_of_order hlater hpair)
    rw [hreleased.1]
    refine ⟨?_, hreleased.2, (List.pairwise_cons.mp hpair).2.sublist hsub⟩
    have := hsub.length_le
    have := h.1
    simp only [List.length_cons] at hlength
    dsimp only
    omega

/-- The arrival of a qualified edge keeps the queue sound (R78 to R80). -/
theorem arrive_orderSound (e : Edge) {s : State} (h : OrderSound s.queue) :
    OrderSound (arrive e s).queue := by
  unfold arrive
  split
  · exact h
  · rename_i hn
    have he : later e.stamp s.queue.mark = true := by simpa [notLater] using hn
    split
    · rename_i hroom
      obtain ⟨hlater, hpair⟩ := insertEdge_ordered h he
      refine ⟨?_, hlater, hpair⟩
      show (insertEdge e s.queue.entries).length ≤ 256
      rw [insertEdge_length]
      exact hroom
    · exact forcedRelease_orderSound h he

/-- A queue that has let all its entries go is sound, whatever W is (R85, R86). -/
theorem orderSound_of_empty (w : Stamp) : OrderSound { entries := [], mark := w } :=
  ⟨by simp, by simp, .nil⟩

end Sys2Proof.Machine
end

section
/-!
SUPPORT. What keeps each block sound: one lemma per operation on a block's own record. The power-on values are
sound (R177).
-/

namespace Sys2Proof.Machine

/-! ## Tables (R50, R54, R67) -/

theorem nominalFraction_toNat (c : Fin 256) : (nominalFraction c).toNat = c.val * 16 + 8 := by
  have := c.isLt
  simp only [nominalFraction, BitVec.toNat_ofNat]
  omega

theorem rising_nominal : Rising (.tabulate nominalFraction) := by
  intro i j hij
  have : i.val ≤ j.val := hij
  rw [Bank.get_tabulate, Bank.get_tabulate, BitVec.le_def, nominalFraction_toNat,
    nominalFraction_toNat]
  omega

/-- A list of values that rise and stay within 4095, as the entries of a table, is rising. -/
theorem rising_entriesOf {vs : List Nat} (hle : ∀ v ∈ vs, v ≤ 4095) (hvs : vs.length = 256)
    (hpair : vs.Pairwise (· ≤ ·)) : Rising (entriesOf vs) := by
  have hget : ∀ i : Fin 256, ((entriesOf vs).get i).toNat = vs[i.val]'(by have := i.isLt; omega) := by
    intro i
    have hi : i.val < vs.length := by have := i.isLt; omega
    have hv := hle _ (List.getElem_mem hi)
    rw [entriesOf, Bank.get_tabulate, BitVec.toNat_ofNat, List.getD_eq_getElem vs 0 hi]
    omega
  intro i j hij
  rw [BitVec.le_def, hget, hget]
  rcases Nat.lt_or_eq_of_le (show i.val ≤ j.val from hij) with h | h
  · exact List.pairwise_iff_getElem.mp hpair _ _ _ _ h
  · simp [h]

/-- Values that pass the shape check are within 4095 and rise (R54). -/
theorem shapeFailure_none {i prev : Nat} {vs : List Nat} (h : shapeFailure i prev vs = none) :
    (∀ v ∈ vs, v ≤ 4095 ∧ prev ≤ v) ∧ vs.Pairwise (· ≤ ·) := by
  induction vs generalizing i prev with
  | nil => simp
  | cons v vs ih =>
    unfold shapeFailure at h
    split at h
    · cases h
    · rename_i hv
      obtain ⟨hall, hpair⟩ := ih h
      refine ⟨fun x hx => ?_, List.pairwise_cons.mpr ⟨fun x hx => (hall x hx).2, hpair⟩⟩
      rcases List.mem_cons.mp hx with rfl | hx'
      · omega
      · have := hall x hx'
        omega

theorem overlay_length (first : Nat) (staged : List Nat) (stored : Entries) :
    (overlay first staged stored).length = 256 := by simp [overlay]

/-- The merged table of an accepted LIN load is rising (R50, R54). -/
theorem rising_of_shape {first : Nat} {staged : List Nat} {stored : Entries}
    (h : shapeFailure 0 0 (overlay first staged stored) = none) :
    Rising (entriesOf (overlay first staged stored)) := by
  obtain ⟨hall, hpair⟩ := shapeFailure_none h
  exact rising_entriesOf (fun v hv => (hall v hv).1) (overlay_length _ _ _) hpair

theorem calEntries_length (l sum : Nat) (hs : List Nat) : (calEntries l sum hs).length = hs.length := by
  induction hs generalizing sum with
  | nil => rfl
  | cons h hs ih => simp [calEntries, ih]

/-- The entries computed from a histogram are within 4095 and rise with the sum of the bins (R67). -/
theorem calEntries_rise (l sum : Nat) (hs : List Nat) :
    (∀ v ∈ calEntries l sum hs, v ≤ 4095 ∧ Nat.min 4095 (2 * sum * 4096 / (2 * l)) ≤ v) ∧
      (calEntries l sum hs).Pairwise (· ≤ ·) := by
  have mono : ∀ a b : Nat, a ≤ b →
      Nat.min 4095 (a * 4096 / (2 * l)) ≤ Nat.min 4095 (b * 4096 / (2 * l)) := fun a b hab =>
    min_le_min_left _ (Nat.div_le_div_right (Nat.mul_le_mul_right _ hab))
  induction hs generalizing sum with
  | nil => simp [calEntries]
  | cons h hs ih =>
    obtain ⟨hall, hpair⟩ := ih (sum + h)
    refine ⟨fun v hv => ?_, List.pairwise_cons.mpr ⟨fun v hv => ?_, hpair⟩⟩
    · rcases List.mem_cons.mp hv with rfl | hv'
      · exact ⟨Nat.min_le_left _ _, mono _ _ (by omega)⟩
      · exact ⟨(hall v hv').1, (mono _ _ (by omega)).trans (hall v hv').2⟩
    · exact (mono _ _ (by omega)).trans (hall v hv).2

theorem rising_computedTable (g : Calibration) : Rising g.computedTable := by
  obtain ⟨hall, hpair⟩ := calEntries_rise (2 ^ g.k) 0 g.counts
  exact rising_entriesOf (fun v hv => (hall v hv).1)
    ((calEntries_length _ _ _).trans g.bins.size_eq) hpair

theorem Table.reset_sound : TableSound Table.reset := ⟨rising_nominal, trivial⟩

/-! ## Markers (R147) -/

/-- What a marker must hold for the width rule to leave it sound, whatever is wanted of the pin. -/
def MarkerReady (m : Marker) : Prop :=
  m.width ≤ 65535 ∧ (∀ p, m.source = .timebase p → 2 ≤ p ∧ p ≤ 2 ^ 32) ∧
    (m.pulseEnd ≠ none → ∃ i, m.source = .done i) ∧
    (m.resetHold ≠ none → m.width = 0 ∧ m.pin = .high)

theorem MarkerSound.ready {m : Marker} (h : MarkerSound m) : MarkerReady m := by
  obtain ⟨hwidth, hsource, hpulse, hreset⟩ := h
  exact ⟨hwidth, hsource, hpulse, fun hn => ⟨(hreset hn).1, (hreset hn).2.1⟩⟩

/-- The width rule leaves a marker sound (R147). -/
theorem Marker.act_sound (now : Nat) {m : Marker} (h : MarkerReady m) : MarkerSound (m.act now) := by
  obtain ⟨hwidth, hsource, hpulse, hreset⟩ := h
  rcases m.act_cases now with ⟨-, hact⟩ | ⟨-, -, hact⟩ | ⟨hne, -, hact⟩ <;> rw [hact]
  · exact ⟨hwidth, hsource, hpulse, fun hn => absurd rfl hn⟩
  · exact ⟨hwidth, hsource, hpulse, fun hn => absurd rfl hn⟩
  · refine ⟨hwidth, hsource, hpulse, fun hn => ?_⟩
    obtain ⟨hw, hp⟩ := hreset hn
    refine ⟨hw, hp, ?_⟩
    rw [hp] at hne
    cases hwant : m.wanted with
    | high => exact absurd hwant hne
    | low => rfl

theorem Marker.ask_sound (now : Nat) (r : Bool) {m : Marker} (h : MarkerSound m) :
    MarkerSound (m.ask now r) := Marker.act_sound now h.ready

theorem Marker.endPulse_sound (now : Nat) {m : Marker} (h : MarkerSound m) :
    MarkerSound (m.endPulse now) := by
  obtain ⟨hwidth, hsource, -, hreset⟩ := h.ready
  exact Marker.act_sound now ⟨hwidth, hsource, fun hn => absurd rfl hn, hreset⟩

theorem Marker.pulse_sound (now : Nat) {m : Marker} {i : Fin 8} (hi : m.source = .done i)
    (h : MarkerSound m) : MarkerSound (m.pulse now) := by
  obtain ⟨hwidth, hsource, -, hreset⟩ := h.ready
  exact Marker.act_sound now ⟨hwidth, hsource, fun _ => ⟨i, hi⟩, hreset⟩

theorem Marker.takeEvent_sound (now : Nat) (hold : Bool) {m : Marker} (h : MarkerSound m) :
    MarkerSound (m.takeEvent now hold) := by
  cases hold with
  | true => exact Marker.act_sound now h.ready
  | false => exact Marker.endPulse_sound now h

/-- A marker with source OFF and width 0, as both resets leave it, has no range to keep. -/
theorem MarkerReady.of_off {m : Marker} (hsource : m.source = .off) (hwidth : m.width = 0)
    (hpulse : m.pulseEnd = none) (hpin : m.resetHold ≠ none → m.pin = .high) : MarkerReady m := by
  refine ⟨by omega, fun p hp => ?_, fun hn => absurd hpulse hn, fun hn => ⟨hwidth, hpin hn⟩⟩
  rw [hsource] at hp
  cases hp

theorem MarkerReady.sound {m : Marker} (h : MarkerReady m) (hn : m.resetHold = none) :
    MarkerSound m := by
  obtain ⟨hwidth, hsource, hpulse, -⟩ := h
  exact ⟨hwidth, hsource, hpulse, fun hne => absurd hn hne⟩

theorem Marker.reset_sound : MarkerSound Marker.reset :=
  (MarkerReady.of_off rfl rfl rfl fun hn => absurd rfl hn).sound rfl

theorem Marker.act_of_agrees {now : Nat} {m : Marker} (h : m.wanted = m.pin) :
    m.act now = { m with resetHold := none } := if_pos h

theorem Marker.act_of_expired {now : Nat} {m : Marker} (h : m.wanted ≠ m.pin)
    (hold : m.holdUntil ≤ now) :
    m.act now = { m with pin := m.wanted, lastTransition := now, resetHold := none } :=
  (if_neg h).trans (if_pos hold)

theorem Marker.act_of_waiting {now : Nat} {m : Marker} (h : m.wanted ≠ m.pin)
    (hold : now < m.holdUntil) : m.act now = m :=
  (if_neg h).trans (if_neg (Nat.not_le.mpr hold))

/-- A node reset leaves each marker sound: a pin that is LOW agrees with the request INACTIVE, so that the
reset's own transition waits only at a pin that is HIGH (R146, R177). -/
theorem Marker.nodeReset_sound (now : Nat) (m : Marker) : MarkerSound (m.nodeReset now) := by
  unfold Marker.nodeReset
  cases hp : m.pin with
  | low =>
    rw [Marker.act_of_agrees rfl]
    exact (MarkerReady.of_off rfl rfl rfl fun hn => absurd rfl hn).sound rfl
  | high => exact Marker.act_sound now (.of_off rfl rfl rfl fun _ => rfl)

theorem sourceOf_timebase {a : SourceArg} {p : Nat} (h : sourceOf a = some (.timebase p)) :
    2 ≤ p ∧ p ≤ 2 ^ 32 := by
  cases a with
  | timebase q =>
    simp only [sourceOf] at h
    split at h
    · rename_i hb
      cases h
      exact between_iff.mp hb
    · cases h
  | off | level | other _ => cases h
  | gate i | armed i | done i | divider i =>
    simp only [sourceOf, Option.map_eq_some_iff] at h
    obtain ⟨_, -, h⟩ := h
    cases h
  | step i b =>
    simp only [sourceOf] at h
    split at h <;> cases h

theorem Marker.setSource_sound (s : State) {a : SourceArg} {src : MarkerSource} {m : Marker}
    (ha : sourceOf a = some src) (h : MarkerSound m) : MarkerSound (m.setSource s src) := by
  obtain ⟨hwidth, -, -, hreset⟩ := h.ready
  exact Marker.act_sound _
    ⟨hwidth, fun p hp => sourceOf_timebase (ha.trans (congrArg some hp)), fun hn => absurd rfl hn,
      hreset⟩

theorem Marker.setInvert_sound (s : State) (v : Bool) {m : Marker} (h : MarkerSound m) :
    MarkerSound (m.setInvert s v) := Marker.act_sound _ h.ready

theorem Marker.setWidth_sound (s : State) {w : Nat} (hw : w ≤ 65535) {m : Marker}
    (h : MarkerSound m) : MarkerSound (m.setWidth s w) := by
  obtain ⟨-, hsource, hpulse, -⟩ := h.ready
  exact Marker.act_sound _ ⟨hw, hsource, hpulse, fun hn => absurd rfl hn⟩

theorem Marker.setHeld_sound (s : State) (v : Bool) {m : Marker} (h : MarkerSound m) :
    MarkerSound (m.setHeld s v) := by
  unfold Marker.setHeld
  split
  · exact Marker.act_sound _ h.ready
  · exact h

/-! ## Channels (R32, R33, R40 to R47) -/

theorem countUp_le (limit n : Nat) : countUp limit n ≤ limit := by
  unfold countUp
  split
  · assumption
  · exact le_rfl

theorem judgeStamp_sound {g : ChanSettings} {st : ChanStatus} (stamp : Stamp)
    (h : ChannelSound ⟨g, st⟩) : ChannelSound ⟨g, (judgeStamp g st stamp).2⟩ := by
  obtain ⟨hpos, hle, hphase, hsupp, hfaults⟩ := h
  dsimp only at hphase hsupp hfaults
  have haccept : ChannelSound ⟨g, (if g.prescale ≤ st.phase + 1 then
      (Verdict.qualified, { st with last := some stamp, phase := 0 })
      else (.uncounted, { st with last := some stamp, phase := st.phase + 1 })).2⟩ := by
    split
    · exact ⟨hpos, hle, hpos, hsupp, hfaults⟩
    · rename_i hlt
      exact ⟨hpos, hle, Nat.lt_of_not_le hlt, hsupp, hfaults⟩
  unfold judgeStamp
  dsimp only
  split
  · exact haccept
  · split
    · exact ⟨hpos, hle, hphase, hsupp, countUp_le _ _⟩
    · split
      · exact ⟨hpos, hle, hphase, countUp_le _ _, hfaults⟩
      · exact haccept

theorem Channel.write_sound {x y : Channel} {arg : ChanArg} (hy : x.write arg = some y)
    (h : ChannelSound x) : ChannelSound y := by
  obtain ⟨hpos, hle, hphase, hsupp, hfaults⟩ := h
  cases arg with
  | prescale v =>
    simp only [Channel.write] at hy
    split at hy
    · rename_i hb
      cases hy
      obtain ⟨h1, h2⟩ := between_iff.mp hb
      exact ⟨h1, h2, h1, hsupp, hfaults⟩
    · cases hy
  | enable v =>
    simp only [Channel.write, Option.map_eq_some_iff] at hy
    obtain ⟨b, -, rfl⟩ := hy
    dsimp only [ChannelSound]
    split <;> exact ⟨hpos, hle, hphase, hsupp, hfaults⟩
  | invert v =>
    simp only [Channel.write, Option.map_eq_some_iff] at hy
    obtain ⟨b, -, rfl⟩ := hy
    dsimp only [ChannelSound]
    split <;> exact ⟨hpos, hle, hphase, hsupp, hfaults⟩
  | sense v | table v | stream v =>
    simp only [Channel.write, Option.map_eq_some_iff] at hy
    obtain ⟨b, -, rfl⟩ := hy
    exact ⟨hpos, hle, hphase, hsupp, hfaults⟩
  | deskew v | holdoff v =>
    simp only [Channel.write] at hy
    split at hy
    · cases hy
      exact ⟨hpos, hle, hphase, hsupp, hfaults⟩
    · cases hy
  | other _ => cases hy

theorem Channel.read_sound {x y : Channel} {item : ChanItem} {fs : List Field}
    (hy : x.read item = some (fs, y)) (h : ChannelSound x) : ChannelSound y := by
  obtain ⟨hpos, hle, hphase, hsupp, hfaults⟩ := h
  cases item with
  | counts =>
    cases hy
    exact ⟨hpos, hle, hphase, Nat.zero_le _, Nat.zero_le _⟩
  | setup | scale | state | last | lastFine =>
    cases hy
    exact ⟨hpos, hle, hphase, hsupp, hfaults⟩
  | other _ => cases hy

theorem Channel.epochStep_sound {x : Channel} (h : ChannelSound x) : ChannelSound x.epochStep := by
  obtain ⟨hpos, hle, -, hsupp, hfaults⟩ := h
  exact ⟨hpos, hle, hpos, hsupp, hfaults⟩

theorem Channel.reset_sound (c : Fin 16) : ChannelSound (Channel.reset c) := by
  simp [ChannelSound, Channel.reset, ChanSettings.reset, ChanStatus.reset]

/-! ## The Result Queue (R137 to R142) -/

theorem QueueRecord.size_pos (r : QueueRecord) : 0 < r.size := by
  rcases r with r | _ | _
  · rcases r with ⟨_, _, _, _, _, body⟩
    cases body <;> exact Nat.succ_pos _
  · exact Nat.one_pos
  · exact Nat.one_pos

theorem cellsOf_append (a b : List QueueRecord) : cellsOf (a ++ b) = cellsOf a + cellsOf b := by
  induction a with
  | nil => simp [cellsOf]
  | cons r a ih => simp only [List.cons_append, cellsOf, ih]; omega

/-- A record appended where it fits leaves the queue sound (R138). -/
theorem ResultsSound.append {q : ResultQueue} {r : QueueRecord} (h : ResultsSound q)
    (hfit : q.occupancy + r.size ≤ 512) :
    ResultsSound { q with records := q.records ++ [r] } := by
  obtain ⟨-, hsent, hrest⟩ := h
  refine ⟨?_, ?_, hrest⟩
  · simpa [ResultQueue.occupancy, cellsOf_append, cellsOf] using hfit
  · match hq : q.records with
    | [] =>
      rw [hq] at hsent
      simp only [List.nil_append]
      dsimp only at hsent
      rw [hsent]
      exact r.size_pos
    | x :: xs =>
      rw [hq] at hsent
      exact hsent

theorem appendRecord_results (r : QueueRecord) (s : State) :
    (appendRecord r s).results = { s.results with records := s.results.records ++ [r] } := by
  unfold appendRecord
  dsimp only
  split <;> rfl

theorem dropRecord_sound {s : State} (h : ResultsSound s.results) :
    ResultsSound (dropRecord s).results := by
  obtain ⟨hocc, hsent, hgaps, hlimit, hthreshold⟩ := h
  refine ⟨hocc, hsent, countUp_le _ _, fun hl => ?_, hthreshold⟩
  have hfull : s.results.gaps = 65535 := by
    rcases (Bool.or_eq_true _ _).mp hl with h | h
    · exact hlimit h
    · exact eq_of_beq h
  show countUp 65535 s.results.gaps = 65535
  rw [hfull]
  rfl

/-- The gap record goes ahead where it fits, and the count starts again (R139, R140). -/
theorem appendGap_sound {s : State} (h : ResultsSound s.results)
    (hfit : s.results.occupancy + 1 ≤ 512) : ResultsSound (appendGap s).results := by
  have hcleared : ResultsSound { s.results with gaps := 0, gapLimit := false } := by
    obtain ⟨hocc, hsent, -, -, hthreshold⟩ := h
    exact ⟨hocc, hsent, Nat.zero_le _, fun hl => absurd hl Bool.false_ne_true, hthreshold⟩
  rw [appendGap, appendRecord_results]
  exact hcleared.append hfit

theorem appendGap_occupancy (s : State) :
    (appendGap s).results.occupancy = s.results.occupancy + 1 := by
  rw [appendGap, appendRecord_results]
  simp [ResultQueue.occupancy, cellsOf_append, cellsOf, QueueRecord.size]

theorem offer_sound (r : QueueRecord) {s : State} (h : ResultsSound s.results) :
    ResultsSound (offer r s).results := by
  unfold offer
  dsimp only
  split
  · split
    · rename_i hfit
      rw [appendRecord_results]
      exact h.append hfit
    · exact dropRecord_sound h
  · split
    · rename_i hfit
      have hfit : s.results.occupancy + 1 + r.size ≤ 512 := hfit
      rw [appendRecord_results]
      refine (appendGap_sound h (by omega)).append ?_
      rw [appendGap_occupancy]
      exact hfit
    · split
      · rename_i hfit
        exact dropRecord_sound (appendGap_sound h hfit)
      · exact dropRecord_sound h

/-! ## The pending-notice set (R169, R170, R172) -/

theorem joinNotices_mem {k x : AttnKind} {ks : List AttnKind} (h : x ∈ joinNotices k ks) :
    x = k ∨ x ∈ ks := by
  unfold joinNotices at h
  split at h
  · exact .inr h
  · simp only [List.mem_append, List.mem_singleton] at h
    exact h.symm

theorem joinNotices_nodup {k : AttnKind} {ks : List AttnKind} (h : ks.Nodup) :
    (joinNotices k ks).Nodup := by
  unfold joinNotices
  split
  · exact h
  · rename_i hk
    exact List.nodup_append.mpr ⟨h, by simp, by simpa using fun a ha (e : a = k) => hk (e ▸ ha)⟩

/-- A raise keeps the set sound: what joins it has its flag set by the raise itself (R169). -/
theorem raise_notices_sound (k : AttnKind) (d : List Field) {s : State} (h : NoticesSound s.command) :
    NoticesSound (raise k d s).command := by
  obtain ⟨hnodup, hall⟩ := h
  have hkeeps : ∀ x : AttnKind, (s.command.attns.get x.code).flag = true ∧
      (s.command.attns.get x.code).notice = true →
      ((raise k d s).command.attns.get x.code).flag = true ∧
        ((raise k d s).command.attns.get x.code).notice = true := by
    intro x hx
    rw [raise_attns, Bank.get_set]
    split
    · rename_i hxk
      rw [hxk] at hx
      unfold Attn.raise
      split
      · exact ⟨rfl, hx.2⟩
      · exact hx
    · exact hx
  refine ⟨?_, fun x hx => ?_⟩
  · rw [raise_notices]
    split
    · exact joinNotices_nodup hnodup
    · exact hnodup
  · rw [raise_notices] at hx
    split at hx
    · rename_i hjoins
      rcases joinNotices_mem hx with rfl | hx'
      · simp only [Attn.joins, Bool.and_eq_true] at hjoins
        rw [raise_attns, Bank.get_set_self, Attn.raise, if_pos hjoins.1.1]
        exact ⟨rfl, hjoins.2⟩
      · exact hkeeps x (hall x hx')
    · exact hkeeps x (hall x hx)

theorem CommandUnit.clear_sound {u : CommandUnit} (kinds : BitVec 12) (h : NoticesSound u) :
    NoticesSound (u.clear kinds) := by
  obtain ⟨hnodup, hall⟩ := h
  refine ⟨hnodup.filter _, fun k hk => ?_⟩
  simp only [CommandUnit.clear, List.mem_filter, Bool.not_eq_true'] at hk
  simp only [CommandUnit.clear, Bank.get_tabulate, hk.2]
  exact hall k hk.1

theorem CommandUnit.setMasks_sound {u : CommandUnit} (enables notices : BitVec 12) (mute : Bool)
    (h : NoticesSound u) : NoticesSound (u.setMasks enables notices mute) := by
  obtain ⟨hnodup, hall⟩ := h
  refine ⟨hnodup.filter _, fun k hk => ?_⟩
  simp only [CommandUnit.setMasks, List.mem_filter] at hk
  simp only [CommandUnit.setMasks, Bank.get_tabulate]
  exact ⟨(hall k hk.1).1, hk.2⟩

/-! ## The load buffer (R173, R174) -/

theorem LoadBuffer.reset_sound : LoadSound LoadBuffer.reset := rfl

theorem LoadTarget.entryWords_pos (t : LoadTarget) : 0 < t.entryWords := by
  cases t <;> simp [LoadTarget.entryWords]

/-- Words appended to an OPEN buffer leave it OPEN below the expected count, and FULL at it (R174). -/
theorem LoadBuffer.take_sound {l : LoadBuffer} (words : List Word16) (hl : l.phase = .opened)
    (h : LoadSound l) : LoadSound (l.take words) := by
  simp only [LoadSound, hl] at h
  obtain ⟨hlt, hrest⟩ := h
  by_cases hfill : words.length < l.expected - l.words.length
  · rw [LoadBuffer.take_of_lt hfill]
    simp only [LoadSound, hl, List.length_append]
    exact ⟨by omega, hrest⟩
  · rw [LoadBuffer.take_of_le (Nat.le_of_not_lt hfill)]
    simp only [LoadSound, List.length_append]
    rw [List.length_take_of_le (Nat.le_of_not_lt hfill)]
    exact ⟨by omega, hrest⟩

/-! ## The Plan Table (R114, R115) -/

/-- A staged step that is not refused has a length, and as step 63 does not lead on (R115). -/
theorem planStepOf_sound {i : Nat} {w0 w1 w2 : Word16} {p : PlanStep}
    (h : planStepOf i w0 w1 w2 = some p) : p.length ≠ 0 ∧ (i = 63 → p.action ≠ .next) := by
  unfold planStepOf at h
  dsimp only at h
  split at h
  · cases h
  · rename_i hlen
    split at h
    · split at h
      · cases h
      · rename_i hi
        cases h
        exact ⟨hlen, fun e => absurd e hi⟩
    · cases h
      exact ⟨hlen, fun _ => nofun⟩
    · cases h
      exact ⟨hlen, fun _ => nofun⟩
    · cases h

/-- Each staged step is one that its own number allows (R115). -/
theorem stagedSteps_sound {i : Nat} {ws : List Word16} {ps : List PlanStep}
    (h : stagedSteps i ws = some ps) (n : Nat) (hn : n < ps.length) :
    ps[n].length ≠ 0 ∧ (i + n = 63 → ps[n].action ≠ .next) := by
  fun_induction stagedSteps i ws generalizing ps n with
  | case1 i w0 w1 w2 ws p qs hqs hp ih =>
    cases h
    match n, hn with
    | 0, _ => exact planStepOf_sound hp
    | n + 1, hn =>
      have hnext := ih hqs n (by simpa using hn)
      rw [Nat.add_right_comm, Nat.add_assoc] at hnext
      exact hnext
  | case2 => cases h
  | case3 =>
    cases h
    cases hn

/-- Staged steps laid over a sound plan leave it sound (R115). -/
theorem mergedPlan_sound {first : Nat} {ws : List Word16} {ps : List PlanStep}
    {plan : Bank PlanStep 64} (hps : stagedSteps first ws = some ps) (h : PlanSound plan) :
    PlanSound (mergedPlan first ps plan) := by
  obtain ⟨hlength, hlast⟩ := h
  have hstep : ∀ n : Fin 64, ((mergedPlan first ps plan).get n).length ≠ 0 ∧
      (n.val = 63 → ((mergedPlan first ps plan).get n).action ≠ .next) := by
    intro n
    rw [mergedPlan, Bank.get_tabulate]
    split
    · rename_i hn
      have hlt : n.val - first < ps.length := by omega
      rw [List.getD_eq_getElem ps _ hlt]
      have := stagedSteps_sound hps _ hlt
      rwa [Nat.add_sub_cancel' hn.1] at this
    · exact ⟨hlength n, fun hn => by rwa [show n = 63 from Fin.ext hn]⟩
  exact ⟨fun n => (hstep n).1, (hstep 63).2 rfl⟩

/-! ## The configuration of a slot (R89) -/

theorem SlotConfig.write_sound {g g' : SlotConfig} {arg : SlotArg} (hg : g.write arg = some g')
    (h : ConfigSound g) : ConfigSound g' := by
  obtain ⟨hl1, hl2, hr, hs1, hs2, ht1, ht2⟩ := h
  cases arg with
  | gateLength v | repeats v | samples v | closeTimeout v =>
    simp only [SlotConfig.write] at hg
    split at hg
    · rename_i hb
      obtain ⟨h1, h2⟩ := between_iff.mp hb
      cases hg
      exact ⟨by assumption, by assumption, by assumption, by assumption, by assumption,
        by assumption, by assumption⟩
    · cases hg
  | endpointB present c se =>
    cases present with
    | false =>
      cases hg
      exact ⟨hl1, hl2, hr, hs1, hs2, ht1, ht2⟩
    | true =>
      simp only [SlotConfig.write, Option.map_eq_some_iff] at hg
      obtain ⟨_, -, rfl⟩ := hg
      exact ⟨hl1, hl2, hr, hs1, hs2, ht1, ht2⟩
  | kind _ | endpointA _ _ | armSource _ | gateMode _ | restart _ | sharedEdge _ | report _ =>
    simp only [SlotConfig.write, Option.map_eq_some_iff] at hg
    obtain ⟨_, -, rfl⟩ := hg
    exact ⟨hl1, hl2, hr, hs1, hs2, ht1, ht2⟩
  | other _ => cases hg

theorem Slot.reset_configSound : ConfigSound Slot.reset.config := by
  simp [ConfigSound, Slot.reset, SlotConfig.reset]

/-! ## The calibration (R62, R65, R66) -/

/-- One more hit in a bin is one more in the sum of the bins. -/
theorem modify_bin_sum {n : Nat} (b : Bank Nat n) (i : Fin n) :
    (b.modify i (· + 1)).cells.sum = b.cells.sum + 1 := by
  have hi : i.val < b.cells.length := by rw [b.size_eq]; exact i.isLt
  have hdrop := List.drop_eq_getElem_cons hi
  have hsplit := List.sum_take_add_sum_drop b.cells i.val
  show (b.cells.set i.val (b.cells[i.val] + 1)).sum = b.cells.sum + 1
  rw [hdrop, List.sum_cons] at hsplit
  rw [List.sum_set, if_pos hi]
  omega

theorem Calibration.reset_sound : CalSound Calibration.reset :=
  ⟨List.sum_replicate_nat, nofun, fun _ => nofun⟩

end Sys2Proof.Machine
end

section
/-!
SUPPORT. What the measurement operations keep: every slot event leaves the slot's configuration as it was (R89), and
the markers sound. `Runs s t` joins this to `Moves s t`.
-/

namespace Sys2Proof.Machine

/-! ## The configuration over a slot event (R89) -/

@[simp] theorem Slot.finish_config (x : Slot) : x.finish.config = x.config := rfl

@[simp] theorem Slot.awaitGate_config (x : Slot) : x.awaitGate.config = x.config := rfl

@[simp] theorem Slot.beginBatch_config (x : Slot) : x.beginBatch.config = x.config := rfl

@[simp] theorem Slot.beginRun_config (x : Slot) (p : Nat) (l : Level) :
    (x.beginRun p l).config = x.config := rfl

@[simp] theorem Slot.passOver_config (x : Slot) : x.passOver.config = x.config := rfl

@[simp] theorem Slot.countEdge_config (e : Edge) (x : Slot) : (x.countEdge e).config = x.config := rfl

@[simp] theorem Slot.recordSample_config (a : PendingA) (e : Edge) (x : Slot) :
    (x.recordSample a e).config = x.config := rfl

@[simp] theorem Slot.emitNoSignal_config (i : Fin 8) (x : Slot) :
    (x.emitNoSignal i).1.config = x.config := rfl

@[simp] theorem Slot.emitRate_config (i : Fin 8) (t : Stamp) (x : Slot) :
    (x.emitRate i t).1.config = x.config := rfl

@[simp] theorem Slot.emitBatch_config (i : Fin 8) (t : Stamp) (x : Slot) :
    (x.emitBatch i t).1.config = x.config := rfl

@[simp] theorem Slot.emitTotal_config (i : Fin 8) (t : Stamp) (x : Slot) :
    (x.emitTotal i t).1.config = x.config := rfl

@[simp] theorem Slot.emitLate_config (i : Fin 8) (x : Slot) : (x.emitLate i).1.config = x.config := by
  unfold Slot.emitLate
  split <;> rfl

@[simp] theorem Slot.formPending_config (t : Stamp) (x : Slot) :
    (x.formPending t).config = x.config := by
  unfold Slot.formPending
  split <;> rfl

@[simp] theorem Slot.openGate_config (t : Stamp) (close : Option Stamp) (x : Slot) :
    (x.openGate t close).config = x.config := by
  unfold Slot.openGate
  dsimp only
  split <;> rfl

@[simp] theorem Slot.openTimed_config (t : Stamp) (x : Slot) : (x.openTimed t).config = x.config :=
  Slot.openGate_config _ _ _

@[simp] theorem Slot.afterGate_config (t : Stamp) (x : Slot) : (x.afterGate t).config = x.config := by
  unfold Slot.afterGate
  split
  · split
    · exact Slot.openTimed_config _ _
    · rfl
  · rfl

@[simp] theorem Slot.closeGate_config (i : Fin 8) (t : Stamp) (x : Slot) :
    (x.closeGate i t).1.config = x.config := by
  unfold Slot.closeGate
  split <;> simp [produce]

@[simp] theorem Slot.startStep_config (plan : Bank PlanStep 64) (n : Fin 64) (t : Stamp) (x : Slot) :
    (x.startStep plan n t).config = x.config := by
  unfold Slot.startStep
  dsimp only
  split
  · split <;> simp
  · split <;> simp

@[simp] theorem Slot.closeStep_config (i : Fin 8) (t : Stamp) (x : Slot) :
    (x.closeStep i t).1.config = x.config := by
  unfold Slot.closeStep
  split
  · dsimp only
    split <;> rfl
  · exact Slot.closeGate_config _ _ _

@[simp] theorem Slot.followStep_config (plan : Bank PlanStep 64) (t : Stamp) (y : Slot) :
    (y.followStep plan t).config = y.config := by
  unfold Slot.followStep
  split
  · rfl
  · split
    · split
      · exact Slot.startStep_config _ _ _ _
      · exact Slot.startStep_config _ _ _ _
      · dsimp only
        split <;> rfl
    · rfl

@[simp] theorem Slot.endStep_config (i : Fin 8) (plan : Bank PlanStep 64) (t : Stamp) (x : Slot) :
    (x.endStep i plan t).1.config = x.config := by
  simp [Slot.endStep]

@[simp] theorem Slot.takeArmPoint_config (plan : Bank PlanStep 64) (t : Stamp) (x : Slot) :
    (x.takeArmPoint plan t).config = x.config := by
  unfold Slot.takeArmPoint
  dsimp only
  split <;> simp

@[simp] theorem Slot.reachArmTime_config (plan : Bank PlanStep 64) (t : Stamp) (x : Slot) :
    (x.reachArmTime plan t).config = x.config := by
  unfold Slot.reachArmTime
  split <;> simp

@[simp] theorem Slot.afterClosing_config (e : Edge) (p : Option PendingGate) (y : Slot) :
    (y.afterClosing e p).config = y.config := by
  unfold Slot.afterClosing
  split
  · rfl
  · split <;> rfl

@[simp] theorem Slot.closingEdge_config (i : Fin 8) (e : Edge) (x : Slot) :
    (x.closingEdge i e).1.config = x.config := by
  simp [Slot.closingEdge, produce]

@[simp] theorem Slot.afterExpiry_config (t : Stamp) (p : Option PendingGate) (y : Slot) :
    (y.afterExpiry t p).config = y.config := by
  unfold Slot.afterExpiry
  split
  · dsimp only
    split <;> simp
  · exact Slot.afterGate_config _ _

@[simp] theorem Slot.expireClose_config (i : Fin 8) (t : Stamp) (x : Slot) :
    (x.expireClose i t).1.config = x.config := by
  simp [Slot.expireClose, produce]

@[simp] theorem Slot.takeBoundary_config (i : Fin 8) (plan : Bank PlanStep 64) (k : Boundary)
    (t : Stamp) (x : Slot) : (x.takeBoundary i plan k t).1.config = x.config := by
  cases k with
  | armTime => exact Slot.reachArmTime_config _ _ _
  | gateClose =>
    simp only [Slot.takeBoundary]
    split <;> simp
  | closeTimeout => exact Slot.expireClose_config _ _ _
  | stepEnd => exact Slot.endStep_config _ _ _ _

@[simp] theorem Slot.matchArm_config (plan : Bank PlanStep 64) (e : Edge) (x : Slot) :
    (x.matchArm plan e).config = x.config := by
  unfold Slot.matchArm
  split
  · split
    · dsimp only
      split <;> simp
    · rfl
  · rfl

@[simp] theorem Slot.matchGate_config (i : Fin 8) (e : Edge) (x : Slot) :
    (x.matchGate i e).1.config = x.config := by
  unfold Slot.matchGate
  split
  · split
    · split
      · split <;> simp
      · rfl
      · split <;> rfl
      · dsimp only
        split <;> rfl
      · rfl
      · rfl
      · simp
    · rfl
  · rfl

@[simp] theorem Slot.rateEdge_config (i : Fin 8) (e : Edge) (x : Slot) :
    (x.rateEdge i e).1.config = x.config := by
  unfold Slot.rateEdge
  split
  · split <;> simp
  · rfl

@[simp] theorem Slot.nextBatch_config (e : Edge) (x : Slot) : (x.nextBatch e).config = x.config := by
  unfold Slot.nextBatch
  dsimp only
  split <;> split <;> simp

@[simp] theorem Slot.afterBatch_config (e : Edge) (y : Slot) : (y.afterBatch e).config = y.config := by
  unfold Slot.afterBatch
  split <;> simp

@[simp] theorem Slot.completeSample_config (i : Fin 8) (a : PendingA) (e : Edge) (x : Slot) :
    (x.completeSample i a e).1.config = x.config := by
  unfold Slot.completeSample
  dsimp only
  split
  · simp [produce]
  · split <;> rfl

@[simp] theorem Slot.intervalEdge_config (i : Fin 8) (e : Edge) (x : Slot) :
    (x.intervalEdge i e).1.config = x.config := by
  unfold Slot.intervalEdge
  split
  · split <;> rfl
  · split
    · split <;> simp
    · split <;> rfl
  · rfl

@[simp] theorem Slot.totalEdge_config (e : Edge) (x : Slot) : (x.totalEdge e).config = x.config := by
  unfold Slot.totalEdge
  split
  · dsimp only
    split <;> rfl
  · rfl

@[simp] theorem Slot.deliver_config (i : Fin 8) (plan : Bank PlanStep 64) (e : Edge) (x : Slot) :
    (x.deliver i plan e).1.config = x.config := by
  unfold Slot.deliver Slot.matchEndpoints
  dsimp only
  split <;> simp

theorem Slot.stop_config {i : Fin 8} {w : Stamp} {x : Slot} {out : SlotOut}
    (h : x.stop i w = some out) : out.1.config = x.config := by
  unfold Slot.stop at h
  dsimp only at h
  split at h
  · cases h
  · cases h; rfl
  · cases h; rfl
  · cases h; rfl
  · split at h
    · cases h; exact Slot.expireClose_config _ _ _
    · cases h; rfl
  all_goals (cases h; rfl)

@[simp] theorem Slot.epochEnd_config (i : Fin 8) (x : Slot) : (x.epochEnd i).1.config = x.config := by
  unfold Slot.epochEnd
  split <;> rfl

/-! ## The measurement part over an operation -/

/-- `t` is reached from `s` by moves of the measurement part that leave every configuration as it was and the
markers sound. -/
structure Runs (s t : State) : Prop where
  moves : Moves s t
  config : ∀ i, (t.slots.get i).config = (s.slots.get i).config
  markers : (∀ m, MarkerSound (s.markers.get m)) → ∀ m, MarkerSound (t.markers.get m)

theorem Runs.refl (s : State) : Runs s s := ⟨.refl, fun _ => rfl, id⟩

theorem Runs.trans {a b c : State} (h : Runs a b) (k : Runs b c) : Runs a c :=
  ⟨h.moves.trans k.moves, fun i => (k.config i).trans (h.config i), k.markers ∘ h.markers⟩

theorem Runs.foldl {α : Type} {f : State → α → State} (hf : ∀ s a, Runs s (f s a)) (l : List α)
    (s : State) : Runs s (l.foldl f s) := by
  induction l generalizing s with
  | nil => exact .refl s
  | cons a l ih => exact (hf s a).trans (ih _)

/-- Moves that touch neither slots nor markers. -/
theorem Runs.of_moves {s t : State} (h : Moves s t) (hs : t.slots = s.slots)
    (hm : t.markers = s.markers) : Runs s t :=
  ⟨h, fun i => by rw [hs], fun k m => by rw [hm]; exact k m⟩

/-- Every marker goes to one that is sound where it was. -/
theorem Runs.map_markers (s : State) {f : Marker → Marker}
    (hf : ∀ m, MarkerSound m → MarkerSound (f m)) :
    Runs s { s with markers := s.markers.map f } :=
  ⟨.markers _ .refl, fun _ => rfl, fun h m => by
    show MarkerSound ((s.markers.map f).get m)
    rw [Bank.get_map]
    exact hf _ (h m)⟩

theorem raise_runs (k : AttnKind) (d : List Field) (s : State) : Runs s (raise k d s) :=
  .of_moves (Moves.refl.raise k d) rfl rfl

theorem offer_slots (r : QueueRecord) (s : State) : (offer r s).slots = s.slots := by
  unfold offer appendGap appendRecord dropRecord
  dsimp only
  repeat' split
  all_goals rfl

theorem offer_markers (r : QueueRecord) (s : State) : (offer r s).markers = s.markers := by
  unfold offer appendGap appendRecord dropRecord
  dsimp only
  repeat' split
  all_goals rfl

theorem offer_runs (r : QueueRecord) (s : State) : Runs s (offer r s) :=
  .of_moves (Moves.refl.offer r) (offer_slots r s) (offer_markers r s)

theorem choices_runs (n : Nat) (s : State) : Runs s { s with choices := n } :=
  .of_moves (Moves.refl.choices n) rfl rfl

theorem setSlot_runs (i : Fin 8) {x : Slot} {s : State}
    (hsound : SlotSound (s.slots.get i) → SlotSound x) (hconfig : x.config = (s.slots.get i).config) :
    Runs s (s.setSlot i x) :=
  ⟨.slot i x hsound .refl, fun j => by
    rw [State.setSlot_slots, Bank.get_set]
    split
    · next h => rw [h, hconfig]
    · rfl, id⟩

theorem refreshSlotMarkers_runs (i : Fin 8) (s : State) : Runs s (refreshSlotMarkers i s) :=
  .map_markers s fun m hm => by
    split
    · exact Marker.ask_sound _ _ hm
    · exact hm

theorem refreshTimebaseMarkers_runs (s : State) : Runs s (refreshTimebaseMarkers s) :=
  .map_markers s fun m hm => by
    split
    · exact Marker.ask_sound _ _ hm
    · exact hm

theorem toggleDividers_runs (c : Fin 16) (s : State) : Runs s (toggleDividers c s) :=
  .map_markers s fun m hm => by
    split
    · exact Marker.ask_sound _ _ hm
    · exact hm

theorem signalDone_runs (i : Fin 8) (s : State) : Runs s (signalDone i s) :=
  .map_markers s fun m hm => by
    split
    · next h => exact Marker.pulse_sound _ h hm
    · exact hm

theorem showPins_runs (s : State) : Runs s (showPins s) := .map_markers s fun _ hm => hm

theorem publish_runs (report : Bool) (r : Record) (s : State) : Runs s (publish report r s) := by
  unfold publish
  refine Runs.trans ?_ (signalDone_runs _ _)
  refine Runs.trans ?_ (raise_runs _ _ _)
  split
  · exact offer_runs _ _
  · exact .refl s

theorem applySlot_runs (i : Fin 8) (out : SlotOut) (s : State)
    (hsound : SlotSound (s.slots.get i) → SlotSound out.1)
    (hconfig : out.1.config = (s.slots.get i).config) : Runs s (applySlot i out s) :=
  ((setSlot_runs i hsound hconfig).trans (Runs.foldl (fun s r => publish_runs _ r s) _ _)).trans
    (refreshSlotMarkers_runs _ _)

theorem takeSlotBoundary_runs (i : Fin 8) (b : Boundary × Stamp) (s : State)
    (h : (s.slots.get i).state ≠ .idle) : Runs s (takeSlotBoundary i b s) :=
  applySlot_runs _ _ _ (fun _ => Slot.takeBoundary_sound _ _ _ _ h) (Slot.takeBoundary_config _ _ _ _ _)

theorem settleSlotLoop_runs (fuel : Nat) (i : Fin 8) (s : State) :
    Runs s (settleSlotLoop fuel i s) := by
  induction fuel generalizing s with
  | zero => exact .refl s
  | succ fuel ih =>
    unfold settleSlotLoop
    split
    · exact .refl s
    · rename_i b _ n h
      have hrun : (s.slots.get i).state ≠ .idle := Slot.runs_of_due (choose_mem h).1
      exact ((choices_runs n s).trans (takeSlotBoundary_runs i b { s with choices := n } hrun)).trans
        (ih _)

theorem settleSlot_runs (s : State) (i : Fin 8) : Runs s (settleSlot s i) := settleSlotLoop_runs _ _ _

theorem slotEvent_runs (i : Fin 8) (out : SlotOut) (s : State)
    (hsound : SlotSound (s.slots.get i) → SlotSound out.1)
    (hconfig : out.1.config = (s.slots.get i).config) : Runs s (slotEvent i out s) :=
  (applySlot_runs i out s hsound hconfig).trans (settleSlot_runs _ _)

theorem mark_runs (w : Stamp) (s : State) : Runs s { s with queue := { s.queue with mark := w } } :=
  .of_moves (Moves.refl.mark w) rfl rfl

theorem moveMark_runs (w : Stamp) (s : State) : Runs s (moveMark w s) := by
  unfold moveMark
  split
  · exact (mark_runs w s).trans (Runs.foldl settleSlot_runs _ _)
  · exact .refl s

theorem deliverTo_runs (e : Edge) (s : State) (i : Fin 8) : Runs s (deliverTo e s i) := by
  unfold deliverTo
  dsimp only
  split
  · exact slotEvent_runs i _ s (Slot.deliver_sound _ _ _) (Slot.deliver_config _ _ _ _)
  · exact .refl s

theorem deliverEdge_runs (e : Edge) (s : State) : Runs s (deliverEdge e s) := by
  unfold deliverEdge
  refine Runs.trans (Runs.trans ?_ (Runs.foldl (deliverTo_runs e) _ _)) (toggleDividers_runs _ _)
  split
  · exact offer_runs _ _
  · exact .refl s

theorem release_runs (s : State) (e : Edge) : Runs s (release s e) :=
  (moveMark_runs _ s).trans (deliverEdge_runs e _)

theorem entries_runs {es : List Edge} (s : State)
    (h : es.length ≤ 256 ∨ es.length ≤ s.queue.entries.length) :
    Runs s { s with queue := { s.queue with entries := es } } :=
  .of_moves (Moves.refl.entries es h) rfl rfl

theorem frontierAdvance_runs (f : Stamp) (s : State) : Runs s (frontierAdvance f s) :=
  ((entries_runs s (.inr (List.length_dropWhile_le _ _))).trans
    (Runs.foldl release_runs _ _)).trans (moveMark_runs _ _)

theorem recordFlag_get (w : Slot → Bool) (f : RunFlags → RunFlags) (s : State) (i : Fin 8) :
    (recordFlag w f s).slots.get i =
      if (s.slots.get i).state != .idle && w (s.slots.get i) then (s.slots.get i).withFlags f
      else s.slots.get i := Bank.get_map _ _ _

theorem recordFlag_runs (w : Slot → Bool) (f : RunFlags → RunFlags) (s : State) :
    Runs s (recordFlag w f s) :=
  ⟨Moves.refl.flag w f, fun i => by
    rw [recordFlag_get]
    split <;> rfl, id⟩

theorem forcedRelease_runs (e : Edge) (s : State) : Runs s (forcedRelease e s) := by
  unfold forcedRelease
  split
  · exact .refl s
  · rename_i first rest h
    refine Runs.trans (Runs.trans (Runs.trans (entries_runs s (.inr ?_))
      (Runs.foldl release_runs _ _)) (raise_runs _ _ _)) (recordFlag_runs _ _ _)
    have hlength := insertEdge_length e s.queue.entries
    have hdrop := List.length_dropWhile_le (fun x : Edge => x.stamp == first.stamp) rest
    rw [h, List.length_cons] at hlength
    omega

theorem arrive_runs (e : Edge) (s : State) : Runs s (arrive e s) := by
  unfold arrive
  split
  · exact (raise_runs _ _ _).trans (recordFlag_runs _ _ _)
  · split
    · rename_i hroom
      refine entries_runs s (.inl ?_)
      rw [insertEdge_length]
      exact hroom
    · exact forcedRelease_runs e s

theorem endSlotsOnStep_runs (s : State) : Runs s (endSlotsOnStep s) :=
  Runs.foldl (fun _ i => applySlot_runs i _ _ (Slot.epochEnd_sound i) (Slot.epochEnd_config _ _)) _ _

theorem setMarker_runs (i : Fin 4) {m : Marker} {s : State}
    (h : MarkerSound (s.markers.get i) → MarkerSound m) : Runs s (s.setMarker i m) :=
  ⟨.markers _ .refl, fun _ => rfl, fun hs j => by
    rw [State.setMarker_markers, Bank.get_set]
    split
    · exact h (hs i)
    · exact hs j⟩

theorem takeEvents_sound (now : Nat) (es : List Bool) {m : Marker} (h : MarkerSound m) :
    MarkerSound (es.foldl (fun m e => m.takeEvent now e) m) := by
  induction es generalizing m with
  | nil => exact h
  | cons e es ih => exact ih (Marker.takeEvent_sound now e h)

theorem settleMarker_runs (s : State) (i : Fin 4) : Runs s (settleMarker s i) := by
  unfold settleMarker
  dsimp only
  split
  · exact .refl s
  · exact (setMarker_runs i fun h =>
      takeEvents_sound _ _ (Marker.takeEvent_sound _ _ h)).trans (choices_runs _ _)

end Sys2Proof.Machine
end

section
/-!
SUPPORT. The invariants over a row. `Keeps s t` says that every invariant but that of RESETn holds in `t` where it
holds in `s`; a row is made of operations that keep them all.
-/

namespace Sys2Proof.Machine

/-- Every invariant that `s` meets but those of the tables and the calibration is met by `t`, and the waiting
commands and RESETn are as they were. A field that is not given is kept because what it speaks of is unchanged. -/
structure KeepsRest (s t : State) : Prop where
  pending : t.pending = s.pending := by exact rfl
  held : t.held = s.held := by exact rfl
  order : OrderSound s.queue → OrderSound t.queue := by exact id
  results : ResultsSound s.results → ResultsSound t.results := by exact id
  replies : RepliesSound s.command → RepliesSound t.command := by exact id
  notices : NoticesSound s.command → NoticesSound t.command := by exact id
  load : LoadSound s.command.load → LoadSound t.command.load := by exact id
  apart : TablesApart s → TablesApart t := by exact id
  slots : (∀ i, SlotSound (s.slots.get i)) → ∀ i, SlotSound (t.slots.get i) := by exact id
  configs : (∀ i, ConfigSound (s.slots.get i).config) → ∀ i, ConfigSound (t.slots.get i).config := by
    exact id
  plan : PlanSound s.plan → PlanSound t.plan := by exact id
  node : NodeSound s.node → NodeSound t.node := by exact id
  timebase : TimebaseSound s.timebase → TimebaseSound t.timebase := by exact id
  channels : (∀ n, ChannelSound (s.channels.get n)) → ∀ n, ChannelSound (t.channels.get n) := by
    exact id
  markers : (∀ m, MarkerSound (s.markers.get m)) → ∀ m, MarkerSound (t.markers.get m) := by exact id

/-- Every invariant that `s` meets is met by `t`. -/
structure Keeps (s t : State) : Prop extends KeepsRest s t where
  tables : (∀ n, TableSound (s.tables.get n)) → ∀ n, TableSound (t.tables.get n) := by exact id
  cal : CalSound s.cal → CalSound t.cal := by exact id

theorem KeepsRest.trans {a b c : State} (h : KeepsRest a b) (k : KeepsRest b c) : KeepsRest a c where
  pending := k.pending.trans h.pending
  held := k.held.trans h.held
  order := k.order ∘ h.order
  results := k.results ∘ h.results
  replies := k.replies ∘ h.replies
  notices := k.notices ∘ h.notices
  load := k.load ∘ h.load
  apart := k.apart ∘ h.apart
  slots := k.slots ∘ h.slots
  configs := k.configs ∘ h.configs
  plan := k.plan ∘ h.plan
  node := k.node ∘ h.node
  timebase := k.timebase ∘ h.timebase
  channels := k.channels ∘ h.channels
  markers := k.markers ∘ h.markers

theorem Keeps.refl (s : State) : Keeps s s := {}

theorem Keeps.trans {a b c : State} (h : Keeps a b) (k : Keeps b c) : Keeps a c :=
  { h.toKeepsRest.trans k.toKeepsRest with
    tables := k.tables ∘ h.tables
    cal := k.cal ∘ h.cal }

/-- An effect that a row has only under a condition. -/
theorem Keeps.guarded {s t : State} {p : Prop} [Decidable p] (h : Keeps s t) :
    Keeps s (if p then t else s) := by
  split
  · exact h
  · exact .refl s

/-! ## The measurement part -/

theorem Moves.results {s t : State} (h : Moves s t) (hs : ResultsSound s.results) :
    ResultsSound t.results := by
  induction h with
  | offer r _ ih => exact offer_sound r ih
  | _ => assumption

/-- The notices are those that some raises leave. -/
theorem offer_notices (r : QueueRecord) {s : State} (h : NoticesSound s.command) :
    NoticesSound (offer r s).command := by
  have happend : ∀ (r : QueueRecord) (t : State), NoticesSound t.command →
      NoticesSound (appendRecord r t).command := by
    intro r t ht
    unfold appendRecord
    dsimp only
    split
    · exact raise_notices_sound _ _ ht
    · exact ht
  have hgap : NoticesSound (appendGap s).command := happend _ _ h
  unfold offer
  dsimp only
  split
  · split
    · exact happend _ _ h
    · exact raise_notices_sound _ _ h
  · split
    · exact happend _ _ hgap
    · split
      · exact raise_notices_sound _ _ hgap
      · exact raise_notices_sound _ _ h

theorem Moves.notices {s t : State} (h : Moves s t) (hs : NoticesSound s.command) :
    NoticesSound t.command := by
  induction h with
  | offer r _ ih => exact offer_notices r ih
  | raise k d _ ih => exact raise_notices_sound k d ih
  | _ => assumption

theorem recordFlag_sound (w : Slot → Bool) (f : RunFlags → RunFlags) {s : State}
    (h : ∀ i, SlotSound (s.slots.get i)) (i : Fin 8) :
    SlotSound ((recordFlag w f s).slots.get i) := by
  rw [recordFlag_get]
  split
  · rename_i hw
    simp only [Bool.and_eq_true, bne_iff_ne] at hw
    exact .of_runs hw.1
  · exact h i

theorem Moves.slotSound {s t : State} (h : Moves s t) (hs : ∀ i, SlotSound (s.slots.get i)) :
    ∀ i, SlotSound (t.slots.get i) := by
  induction h with
  | slot i x hx _ ih =>
    intro j
    rw [State.setSlot_slots, Bank.get_set]
    split
    · exact hx (ih i)
    · exact ih j
  | flag w f _ ih => exact recordFlag_sound w f ih
  | offer r _ ih => rw [offer_slots]; exact ih
  | _ => assumption

/-- What the measurement part does keeps every invariant, where it keeps the Ordering Queue in order. -/
theorem Runs.keeps {s t : State} (h : Runs s t) (ho : OrderSound s.queue → OrderSound t.queue) :
    Keeps s t := by
  have hb := h.moves.same
  exact
    { pending := hb.pending
      held := hb.held
      order := ho
      results := h.moves.results
      replies := by
        unfold RepliesSound
        rw [hb.replies, hb.repliesSent]
        exact id
      notices := h.moves.notices
      load := by rw [hb.load]; exact id
      tables := by rw [hb.tables]; exact id
      cal := by rw [hb.cal]; exact id
      apart := by
        unfold TablesApart TableUnclaimed
        rw [hb.load, hb.tables, hb.cal]
        exact id
      slots := h.moves.slotSound
      configs := fun hs i => by rw [h.config i]; exact hs i
      plan := by rw [hb.plan]; exact id
      node := by rw [hb.node]; exact id
      timebase := by rw [hb.timebase]; exact id
      channels := by rw [hb.channels]; exact id
      markers := h.markers }

/-- The same where the Ordering Queue is left as it is. -/
theorem Runs.keeps_of_queue {s t : State} (h : Runs s t) (hq : t.queue = s.queue) : Keeps s t :=
  h.keeps (by rw [hq]; exact id)

theorem raise_keeps (k : AttnKind) (d : List Field) (s : State) : Keeps s (raise k d s) :=
  (raise_runs k d s).keeps_of_queue rfl

theorem slotEvent_queue (i : Fin 8) (out : SlotOut) (s : State) :
    (slotEvent i out s).queue = s.queue := by
  rw [slotEvent, settleSlot_queue, applySlot_queue]

theorem applySlot_keeps (i : Fin 8) (out : SlotOut) (s : State)
    (hsound : SlotSound (s.slots.get i) → SlotSound out.1)
    (hconfig : out.1.config = (s.slots.get i).config) : Keeps s (applySlot i out s) :=
  (applySlot_runs i out s hsound hconfig).keeps_of_queue (applySlot_queue _ _ _)

theorem slotEvent_keeps (i : Fin 8) (out : SlotOut) (s : State)
    (hsound : SlotSound (s.slots.get i) → SlotSound out.1)
    (hconfig : out.1.config = (s.slots.get i).config) : Keeps s (slotEvent i out s) :=
  (slotEvent_runs i out s hsound hconfig).keeps_of_queue (slotEvent_queue _ _ _)

theorem frontierAdvance_keeps (f : Stamp) (s : State) : Keeps s (frontierAdvance f s) :=
  (frontierAdvance_runs f s).keeps (frontierAdvance_orderSound f)

theorem arrive_keeps (e : Edge) (s : State) : Keeps s (arrive e s) :=
  (arrive_runs e s).keeps (arrive_orderSound e)

theorem setMarker_keeps (i : Fin 4) {m : Marker} {s : State}
    (h : MarkerSound (s.markers.get i) → MarkerSound m) : Keeps s (s.setMarker i m) :=
  (setMarker_runs i h).keeps_of_queue rfl

/-! ## The power-on values (R177) -/

theorem ResultQueue.reset_sound : ResultsSound ResultQueue.reset :=
  ⟨Nat.zero_le _, rfl, Nat.zero_le _, nofun, by decide, by decide⟩

theorem CommandUnit.reset_repliesSound : RepliesSound CommandUnit.reset := ⟨Nat.zero_le _, rfl⟩

theorem CommandUnit.reset_noticesSound : NoticesSound CommandUnit.reset := ⟨.nil, nofun⟩

theorem tables_reset_sound (n : Fin 8) : TableSound ((Bank.fill 8 Table.reset).get n) := by
  rw [Bank.get_fill]
  exact Table.reset_sound

theorem slots_reset_sound (i : Fin 8) : SlotSound ((Bank.fill 8 Slot.reset).get i) := by
  rw [Bank.get_fill]
  exact Slot.reset_sound

theorem configs_reset_sound (i : Fin 8) : ConfigSound ((Bank.fill 8 Slot.reset).get i).config := by
  rw [Bank.get_fill]
  exact Slot.reset_configSound

theorem channels_reset_sound (n : Fin 16) : ChannelSound ((Bank.tabulate Channel.reset).get n) := by
  rw [Bank.get_tabulate]
  exact Channel.reset_sound n

theorem markers_reset_sound (m : Fin 4) : MarkerSound ((Bank.fill 4 Marker.reset).get m) := by
  rw [Bank.get_fill]
  exact Marker.reset_sound

theorem plan_reset_sound : PlanSound (.fill 64 PlanStep.reset) := by
  refine ⟨fun n => ?_, ?_⟩ <;> rw [Bank.get_fill]
  · decide
  · exact nofun

theorem Timebase.reset_sound : TimebaseSound Timebase.reset :=
  ⟨by decide, by decide, by decide, by decide, by decide⟩

theorem resetHorizon_in_range : 256 ≤ Config.resetHorizon ∧ Config.resetHorizon ≤ 65535 := by decide

/-- With the buffer EMPTY and the engine IDLE no table is claimed. -/
theorem tablesApart_of_idle {s : State} (hl : s.command.load.phase = .empty)
    (hc : s.cal.active = false) : TablesApart s :=
  ⟨fun _ hn => absurd hl hn, fun ha => absurd (hc.symm.trans ha) Bool.false_ne_true⟩

/-! ## Small updates -/

theorem link_keeps (l : Link) (s : State) : Keeps s { s with link := l } := {}

theorem choices_keeps (n : Nat) (s : State) : Keeps s { s with choices := n } := {}

theorem pushSlot_keeps (t : TxSlot) (s : State) : Keeps s (pushSlot t s) := link_keeps _ s

theorem toHunt_keeps (s : State) : Keeps s (toHunt s) := link_keeps _ s

theorem transmit_keeps (c : TxCell) (s : State) : Keeps s (transmit c s) := link_keeps _ s

theorem setChannel_keeps (c : Fin 16) {x : Channel} {s : State}
    (h : ChannelSound (s.channels.get c) → ChannelSound x) : Keeps s (s.setChannel c x) :=
  { channels := fun hs n => by
      rw [State.setChannel_channels, Bank.get_set]
      split
      · exact h (hs c)
      · exact hs n }

/-- With the buffer EMPTY no load claims a table. -/
theorem tablesApart_of_empty {s t : State} (ht : t.tables = s.tables) (hc : t.cal = s.cal)
    (hl : t.command.load.phase = .empty) (h : TablesApart s) : TablesApart t := by
  refine ⟨fun n hn => absurd hl hn, ?_⟩
  rw [ht, hc]
  exact h.2

theorem emptyLoad_keeps (s : State) : Keeps s (emptyLoad s) :=
  { load := fun _ => LoadBuffer.reset_sound
    apart := tablesApart_of_empty rfl rfl rfl }

theorem abandonLoad_keeps (code : Nat) (s : State) : Keeps s (abandonLoad code s) := by
  rcases abandonLoad_cases code s with h | ⟨-, -, h⟩
  · rw [h]
    exact .refl s
  · rw [h]
    exact (emptyLoad_keeps s).trans (raise_keeps _ _ _)

/-- A command that is not of those that keep a load finds none OPEN (R176). -/
theorem abandonLoad_closes {code : Nat} (s : State) (hk : keepsLoad code = false) :
    (abandonLoad code s).command.load.phase ≠ .opened := by
  rcases abandonLoad_cases code s with h | ⟨-, -, h⟩
  · intro ho
    have hopen : s.command.load.phase = .opened := by rw [h] at ho; exact ho
    have : (abandonLoad code s).command.load.phase = .empty := by
      simp [abandonLoad, hopen, hk, LoadBuffer.reset]
    rw [this] at ho
    cases ho
  · rw [h]
    exact nofun

@[simp] theorem abandonLoad_replies (code : Nat) (s : State) :
    (abandonLoad code s).command.replies = s.command.replies := by
  rcases abandonLoad_cases code s with h | ⟨-, -, h⟩ <;> rw [h]
  rfl

/-- A reply joins the queue where there is room for it (R166). -/
theorem queueReply_keeps (tag : Byte) (code : ReplyCode) (fields : List Field) {s : State}
    (hroom : s.command.replies.length < 8) : Keeps s (queueReply tag code fields s) :=
  { replies := by
      rintro ⟨-, hsent⟩
      refine ⟨by simp only [queueReply, List.length_append, List.length_singleton]; omega, ?_⟩
      match hr : s.command.replies with
      | [] =>
        rw [hr] at hsent
        simp only [queueReply, hr, List.nil_append]
        dsimp only at hsent
        rw [hsent, Reply.cells]
        split <;> decide
      | r :: rs =>
        rw [hr] at hsent
        simp only [queueReply, hr, List.cons_append]
        exact hsent }

/-! ## Cells and commands -/

/-- A cell's arrival keeps the invariants where the handing on does. -/
theorem receive_keeps {f : State → State} (s : State) (hf : ∀ t, Keeps t (f t)) :
    Keeps s (receive f s) := by
  rcases receive_cases f s with h | ⟨-, h⟩ | ⟨-, h⟩ <;> rw [h]
  · exact .refl s
  · exact toHunt_keeps s
  · exact (link_keeps _ s).trans (hf _)

/-- A command's own rule keeps every invariant, and queues no reply by itself. -/
structure AnswerKeeps (s : State) (a : Answer) : Prop extends Keeps s a.state where
  room : a.state.command.replies.length ≤ s.command.replies.length := by exact le_rfl

theorem AnswerKeeps.still (s : State) (code : ReplyCode) (fields : List Field) :
    AnswerKeeps s (.still s code fields) := { Keeps.refl s with }

theorem Runs.replies {s t : State} (h : Runs s t) : t.command.replies = s.command.replies :=
  h.moves.same.replies

/-- The same for what the measurement part does. -/
theorem AnswerKeeps.of_runs {s : State} {a : Answer} (h : Runs s a.state)
    (ho : OrderSound s.queue → OrderSound a.state.queue) : AnswerKeeps s a :=
  { h.keeps ho with room := h.replies ▸ le_rfl }

theorem carryOut_keeps {code : Nat} {tag : Byte} {answers : Bool} {judge : State → Answer}
    {s : State} (hroom : answers = true → s.command.replies.length < 8)
    (hj : ∀ t, (keepsLoad code = false → t.command.load.phase ≠ .opened) → AnswerKeeps t (judge t)) :
    Keeps s (carryOut code tag answers judge s) := by
  have hjudged := hj _ (abandonLoad_closes (code := code) s)
  have hkeeps := (abandonLoad_keeps code s).trans hjudged.toKeeps
  have hlen := hjudged.room
  rw [abandonLoad_replies] at hlen
  unfold carryOut
  dsimp only
  split
  · rename_i ha
    exact hkeeps.trans (queueReply_keeps _ _ _ (lt_of_le_of_lt hlen (hroom ha)))
  · exact hkeeps

/-- A COMMAND cell keeps every invariant where the command's own rule does, judged with no load OPEN unless it
is one of the commands that keep a load (R176). -/
theorem takeCommand_keeps_of {code : Nat} {judge : Bool → State → Answer} (c : Cell) (s : State)
    (hj : ∀ b t, (keepsLoad code = false → t.command.load.phase ≠ .opened) →
      AnswerKeeps t (judge b t)) :
    Keeps s (takeCommand code c judge s) := by
  have hconsumed : Keeps s (consumed s) := link_keeps _ s
  have hrelayed : Keeps s (relayed c s) := link_keeps _ s
  rcases takeCommand_cases code c judge s with
    h | ⟨-, h⟩ | ⟨-, h⟩ | ⟨-, h⟩ | ⟨-, h⟩ | ⟨-, hroom, h⟩ <;> rw [h]
  · exact .refl s
  · exact toHunt_keeps s
  · exact hrelayed
  · exact hconsumed.trans (raise_keeps _ _ _)
  · exact hrelayed.trans (carryOut_keeps (fun ha => absurd ha Bool.false_ne_true) (hj true))
  · exact hconsumed.trans (carryOut_keeps (fun _ => hroom) (hj false))

/-- A command whose own rule keeps every invariant whatever the load buffer holds. -/
theorem takeCommand_keeps_all {code : Nat} {judge : Bool → State → Answer} (c : Cell) (s : State)
    (hj : ∀ b t, AnswerKeeps t (judge b t)) : Keeps s (takeCommand code c judge s) :=
  takeCommand_keeps_of c s fun b t _ => hj b t

/-! ## The commands of the node and the Command Unit -/

theorem nameNode_keeps (address : Nat) (b : Bool) (s : State) :
    AnswerKeeps s (nameNode address b s) := by
  unfold nameNode
  split
  · exact .still _ _ _
  · split
    · rename_i hb
      exact { node := fun _ => between_iff.mp hb }
    · exact .still _ _ _

theorem setMode_keeps (state : Nat) (s : State) : AnswerKeeps s (setMode state s) := by
  unfold setMode
  split
  · exact .still _ _ _
  · rename_i m hm
    split
    · exact .still _ _ _
    · rename_i hnamed
      refine { node := fun h => ?_ }
      have haddress : 1 ≤ s.node.address ∧ s.node.address ≤ 14 := by
        unfold NodeSound at h
        split at h
        · contradiction
        · exact h
        · exact h
      unfold modeOf at hm
      split at hm <;> cases hm <;> exact haddress

theorem clearAttentions_keeps (kinds : BitVec 12) (linkErrors : Bool) (s : State) :
    AnswerKeeps s (clearAttentions kinds linkErrors s) :=
  { notices := CommandUnit.clear_sound kinds }

theorem setAttentions_keeps (enables notices : BitVec 12) (mute : Bool) (s : State) :
    AnswerKeeps s (setAttentions enables notices mute s) :=
  { notices := CommandUnit.setMasks_sound enables notices mute }

/-- A node reset meets every invariant by the power-on values, or because what it keeps did (R177). -/
theorem nodeReset_keeps (badRun : Nat) (s : State) (code : ReplyCode) (fields : List Field) :
    AnswerKeeps s ⟨nodeReset badRun s, code, fields⟩ where
  order _ := orderSound_of_empty _
  results _ := ResultQueue.reset_sound
  replies _ := CommandUnit.reset_repliesSound
  notices _ := CommandUnit.reset_noticesSound
  load _ := LoadBuffer.reset_sound
  tables _ := tables_reset_sound
  cal _ := Calibration.reset_sound
  apart _ := tablesApart_of_idle rfl rfl
  slots _ := slots_reset_sound
  configs _ := configs_reset_sound
  plan _ := plan_reset_sound
  timebase h := ⟨resetHorizon_in_range.1, resetHorizon_in_range.2, h.2.2⟩
  channels _ := channels_reset_sound
  markers _ m := by
    show MarkerSound ((s.markers.map (Marker.nodeReset s.markerTime)).get m)
    rw [Bank.get_map]
    exact Marker.nodeReset_sound _ _
  room := Nat.zero_le _

/-! ## The commands of the Timebase and the channels -/

/-- The state with the horizon written. -/
def withHorizon (n : Nat) (s : State) : State := { s with timebase := { s.timebase with horizon := n } }

/-- A change of the horizon writes it, and where it becomes smaller is one frontier advance (R15). -/
theorem changeHorizon_eq (n : Nat) (s : State) :
    changeHorizon n s =
      if n < s.timebase.horizon then
        frontierAdvance (withHorizon n s).timebase.frontier (withHorizon n s)
      else withHorizon n s := rfl

theorem changeHorizon_keeps {n : Nat} (s : State) (hlo : 256 ≤ n) (hhi : n ≤ 65535) :
    Keeps s (changeHorizon n s) := by
  have hset : Keeps s (withHorizon n s) := { timebase := fun h => ⟨hlo, hhi, h.2.2⟩ }
  rw [changeHorizon_eq]
  split
  · exact hset.trans (frontierAdvance_keeps _ _)
  · exact hset

theorem changeHorizon_replies (n : Nat) (s : State) :
    (changeHorizon n s).command.replies = s.command.replies := by
  rw [changeHorizon_eq]
  split
  · rw [(frontierAdvance_runs _ _).replies]
    rfl
  · rfl

theorem setHorizon_keeps (n : Nat) (s : State) : AnswerKeeps s (setHorizon n s) := by
  unfold setHorizon
  split
  · exact .still _ _ _
  · rename_i hb
    split
    · exact .still _ _ _
    · obtain ⟨hlo, hhi⟩ := between_iff.mp (by simpa using hb)
      exact ⟨changeHorizon_keeps s hlo hhi, (congrArg List.length (changeHorizon_replies n s)).le⟩

theorem setTrim_keeps (n : Nat) (s : State) : AnswerKeeps s (setTrim n s) := by
  unfold setTrim
  split
  · exact {}
  · exact .still _ _ _

theorem chanWrite_keeps (channel : Nat) (arg : ChanArg) (s : State) :
    AnswerKeeps s (chanWrite channel arg s) := by
  unfold chanWrite
  dsimp only
  split
  · exact .still _ _ _
  · split
    · exact .still _ _ _
    · rename_i y hy
      split
      · exact .still _ _ _
      · exact { setChannel_keeps _ (Channel.write_sound hy) with }

theorem chanRead_keeps (channel : Nat) (item : ChanItem) (s : State) :
    AnswerKeeps s (chanRead channel item s) := by
  unfold chanRead
  split
  · exact .still _ _ _
  · split
    · exact .still _ _ _
    · rename_i fs y hy
      exact { setChannel_keeps _ (Channel.read_sound hy) with }

end Sys2Proof.Machine
end

section
/-!
SUPPORT. The invariants over the loads, the tables and the calibration (R50, R53 to R57, R65 to R71).
-/

namespace Sys2Proof.Machine

/-! ## Tables -/

theorem isUpdating_false_of {x : Table} (h : ∀ n m, x.phase ≠ .updating n m) : x.isUpdating = false := by
  unfold Table.isUpdating
  split
  · rename_i hp
    exact absurd hp (h _ _)
  · rfl

/-- A table whose update begins keeps its stored entries, and the other tables stand (R55). -/
theorem beginUpdate_get (t n : Fin 8) (m : Entries) (s : State) :
    (beginUpdate t m s).tables.get n =
      if n = t then { s.tables.get t with phase := .updating 0 m } else s.tables.get n :=
  Bank.get_set _ _ _ _

/-- An update to rising entries leaves the tables sound. -/
theorem beginUpdate_tables_sound {t : Fin 8} {m : Entries} {s : State} (hm : Rising m)
    (h : ∀ n, TableSound (s.tables.get n)) (n : Fin 8) :
    TableSound ((beginUpdate t m s).tables.get n) := by
  rw [beginUpdate_get]
  split
  · exact ⟨(h t).1, by decide, hm⟩
  · exact h n

/-- The other tables' states stand, and that of the table itself is not UPDATING (R55). -/
theorem endUpdate_isUpdating (t n : Fin 8) (m : Entries) (s : State) :
    ((endUpdate t m s).tables.get n).isUpdating =
      if n = t then false else (s.tables.get n).isUpdating := by
  rw [endUpdate, raise_tables, State.setTable_tables, Bank.get_set]
  split <;> rfl

/-- Tables that are UPDATING no more are claimed no more. -/
theorem tablesApart_of_updating {s t : State} (hl : t.command.load = s.command.load)
    (hc : t.cal.active = true → s.cal.active = true ∧ t.cal.table = s.cal.table)
    (hu : ∀ n, (s.tables.get n).isUpdating = false → (t.tables.get n).isUpdating = false)
    (h : TablesApart s) : TablesApart t := by
  unfold TablesApart TableUnclaimed
  rw [hl]
  refine ⟨fun n hn ht => ⟨hu n (h.1 n hn ht).1, fun ha => ?_⟩, fun ha => ?_⟩
  · rw [(hc ha).2]
    exact (h.1 n hn ht).2 (hc ha).1
  · rw [(hc ha).2]
    exact hu _ (h.2 (hc ha).1)

theorem updateDone_some {k : Nat} {x : Table} {m : Entries} (h : x.updateDone k = some m) :
    ∃ c, x.phase = .updating c m ∧ k ≤ c := by
  unfold Table.updateDone at h
  split at h
  · split at h
    · rename_i hp hk
      cases h
      exact ⟨_, hp, hk⟩
    · cases h
  · cases h

theorem endUpdate_apart (t : Fin 8) (m : Entries) {s : State} (h : TablesApart s) :
    TablesApart (endUpdate t m s) := by
  refine tablesApart_of_updating (s := s) rfl (fun ha => ⟨ha, rfl⟩) (fun n hn => ?_) h
  rw [endUpdate_isUpdating]
  split
  · rfl
  · exact hn

/-- The end of an update leaves the tables sound: the merged entries are rising (R50, R55). -/
theorem endUpdate_keeps {t : Fin 8} {k : Nat} {m : Entries} {s : State}
    (hm : (s.tables.get t).updateDone k = some m) : Keeps s (endUpdate t m s) := by
  refine Keeps.trans (b := s.setTable t { phase := .loaded, entries := m }) ?_ (raise_keeps _ _ _)
  refine { tables := fun h n => ?_, apart := endUpdate_apart t m }
  obtain ⟨c, hphase, -⟩ := updateDone_some hm
  rw [State.setTable_tables, Bank.get_set]
  split
  · have hsound := (h t).2
    rw [hphase] at hsound
    exact ⟨hsound.2, trivial⟩
  · exact h n

/-! ## The calibration -/

/-- A run's end: the run record keeps its bins and hits, and is no longer active. -/
theorem endCalibration_keeps {g : Calibration} {o : CalOutcome} {s : State} (ho : o ≠ .running)
    (hbins : g.bins = s.cal.bins) (hhits : g.hits = s.cal.hits) :
    Keeps s (endCalibration g o s) := by
  refine Keeps.trans (b := { s with cal := { g with active := false, outcome := o } }) ?_
    (raise_keeps _ _ _)
  refine
    { cal := fun h => ⟨?_, nofun, fun _ => ho⟩
      apart := fun h => ⟨fun n hn ht => ⟨(h.1 n hn ht).1, nofun⟩, nofun⟩ }
  show g.bins.cells.sum = g.hits
  rw [hbins, hhits]
  exact h.1

theorem endCalibration_load (g : Calibration) (o : CalOutcome) (s : State) :
    (endCalibration g o s).command.load = s.command.load := rfl

/-- A completed run is IDLE, with its hits in its bins (R62, R68). -/
theorem completeCalibration_cal {s : State} (h : s.cal.bins.cells.sum = s.cal.hits) :
    CalSound (completeCalibration s).cal := by
  unfold completeCalibration
  dsimp only
  split <;> exact ⟨h, nofun, fun _ => nofun⟩

/-- The completion of an active run hands its table over, which no load claims (R57, R67, R68). -/
theorem completeCalibration_keeps {s : State} (ha : s.cal.active = true) :
    Keeps s (completeCalibration s) := by
  unfold completeCalibration
  dsimp only
  split
  · exact endCalibration_keeps nofun rfl rfl
  · have hended : Keeps s (endCalibration (s.cal.withQuality (2 ^ s.cal.k)) .done s) :=
      endCalibration_keeps nofun rfl rfl
    exact
      { hended with
        tables := beginUpdate_tables_sound (rising_computedTable _)
        apart := fun h => by
          refine ⟨fun n hn ht => ⟨?_, nofun⟩, nofun⟩
          have hne : n ≠ s.cal.table := fun e => (h.1 n hn ht).2 ha e.symm
          rw [beginUpdate_get]
          exact (congrArg Table.isUpdating (if_neg hne)).trans (h.1 n hn ht).1 }

theorem execCalCompletion_keeps (s : State) :
    Keeps s (if !s.held && s.cal.complete then completeCalibration s else s) := by
  split
  · rename_i h
    simp only [Calibration.complete, Bool.and_eq_true] at h
    exact completeCalibration_keeps h.2.1
  · exact .refl s

/-- A hit stays below the L hits of its run, or completes it (R65, R67). -/
theorem calibrationTap_keeps (c : Fin 16) (fine : Fin 256) (s : State) :
    Keeps s (calibrationTap c fine s) := by
  unfold calibrationTap
  dsimp only
  split
  · rename_i hrun
    simp only [Bool.and_eq_true] at hrun
    have hsum : CalSound s.cal →
        (s.cal.bins.modify fine (· + 1)).cells.sum = s.cal.hits + 1 := fun h => by
      rw [modify_bin_sum, h.1]
    split
    · rename_i hcomplete
      have hkeeps := completeCalibration_keeps
        (s := { s with
          cal := { s.cal with bins := s.cal.bins.modify fine (· + 1), hits := s.cal.hits + 1 } }) hrun.1
      exact { hkeeps with cal := fun h => completeCalibration_cal (hsum h) }
    · rename_i hmore
      refine
        { cal := fun h => ⟨hsum h, fun ha => ⟨(h.2.1 ha).1, ?_, (h.2.1 ha).2.2⟩, h.2.2⟩ }
      simp only [Calibration.complete, Bool.and_eq_true, decide_eq_true_eq, not_and, Nat.not_le]
        at hmore
      exact hmore ha
  · exact .refl s

theorem expireCalibration_keeps (s : State) : Keeps s (expireCalibration s) :=
  endCalibration_keeps nofun rfl rfl

theorem calCancel_keeps (s : State) : AnswerKeeps s (calCancel s) := by
  unfold calCancel
  split
  · exact { endCalibration_keeps (o := .cancelled) (g := s.cal.withQuality s.cal.hits) nofun rfl rfl with }
  · exact .still _ _ _

/-- A fresh run of a table that is not UPDATING and that no load claims (R57, R63, R64). -/
theorem calRun_keeps (table channel k timeout emptyLimit : Nat) {s : State}
    (hopen : s.command.load.phase ≠ .opened) :
    AnswerKeeps s (calRun table channel k timeout emptyLimit s) := by
  unfold calRun
  dsimp only
  split
  · rename_i t c _ _
    split
    · exact .still _ _ _
    · rename_i hrange
      split
      · exact .still _ _ _
      · rename_i hbusy
        split
        · exact .still _ _ _
        · simp only [Bool.not_eq_true', Bool.not_eq_false, Bool.and_eq_true] at hrange
          simp only [Bool.or_eq_true, not_or, Bool.not_eq_true] at hbusy
          obtain ⟨⟨-, htable⟩, hfull⟩ := hbusy
          obtain ⟨⟨-, htimeout⟩, -⟩ := hrange
          have hlimit : 0 < timeout * 250000 :=
            Nat.mul_pos (between_iff.mp htimeout).1 (by decide)
          refine
            { cal := fun _ => ⟨Calibration.reset_sound.1, fun _ => ⟨rfl, Nat.two_pow_pos _, hlimit⟩, nofun⟩
              apart := fun h => ⟨fun n hn ht => ⟨(h.1 n hn ht).1, fun _ e => ?_⟩, fun _ => htable⟩ }
          have htarget : s.command.load.target = .lin t :=
            ht.trans (congrArg LoadTarget.lin (show n = t from e.symm))
          have hphase : s.command.load.phase = .full := by
            cases hp : s.command.load.phase with
            | empty => exact absurd hp hn
            | opened => exact absurd hp hopen
            | full => rfl
          simp [fullLoadOf, hphase, htarget] at hfull
  · exact .still _ _ _

/-! ## The loads -/

theorem loadOpen_keeps (target : LoadArg) (first count : Nat) (s : State) :
    AnswerKeeps s (loadOpen target first count s) := by
  unfold loadOpen
  split
  · exact .still _ _ _
  · rename_i t _
    split
    · exact .still _ _ _
    · rename_i hrange
      split
      · exact .still _ _ _
      · split
        · exact .still _ _ _
        · rename_i hfree
          simp only [not_or, Nat.not_lt, Config.loadWords] at hrange
          obtain ⟨hcount, hextent, hwords⟩ := hrange
          refine
            { load := fun _ => ⟨?_, rfl, hwords, hextent⟩
              apart := fun h => ⟨fun n _ ht => ?_, h.2⟩ }
          · exact Nat.mul_pos (Nat.pos_of_ne_zero hcount) t.entryWords_pos
          · cases ht
            simp only [targetForbidden, loadForbidden, Bool.or_eq_true, not_or, Bool.not_eq_true] at hfree
            refine ⟨hfree.1, fun ha e => ?_⟩
            have ha : s.cal.active = true := ha
            have e : s.cal.table = n := e
            simp [ha, e] at hfree

theorem loadData_keeps (words : List Word16) (s : State) : AnswerKeeps s (loadData words s) := by
  unfold loadData
  dsimp only
  split
  · rename_i hopen
    refine { load := LoadBuffer.take_sound words hopen, apart := fun h => ⟨fun n _ ht => ?_, h.2⟩ }
    exact h.1 n (by rw [hopen]; nofun) ht
  · exact .still _ _ _

theorem loadCancel_keeps (s : State) (code : ReplyCode) (fields : List Field) :
    AnswerKeeps s ⟨emptyLoad s, code, fields⟩ := { emptyLoad_keeps s with }

theorem commitMap_keeps (l : LoadBuffer) (s : State) : AnswerKeeps s (commitMap l s) := by
  unfold commitMap
  dsimp only
  split
  · exact .still _ _ _
  · split
    · exact .still _ _ _
    · exact
        { load := fun _ => LoadBuffer.reset_sound
          apart := tablesApart_of_empty rfl rfl rfl }

/-- The update of an accepted LIN load: its table was claimed by the load, so that no run claims it (R57). -/
theorem commitTable_keeps {t : Fin 8} {s : State} (hfull : s.command.load.phase = .full)
    (ht : s.command.load.target = .lin t) : AnswerKeeps s (commitTable t s.command.load s) := by
  unfold commitTable
  dsimp only
  split
  · exact .still _ _ _
  · rename_i hshape
    refine
      { load := fun _ => LoadBuffer.reset_sound
        tables := beginUpdate_tables_sound (rising_of_shape hshape)
        apart := fun h => ⟨fun _ hn => absurd rfl hn, fun ha => ?_⟩ }
    have hne : s.cal.table ≠ t := (h.1 t (by rw [hfull]; nofun) ht).2 ha
    show ((beginUpdate t _ s).tables.get s.cal.table).isUpdating = false
    rw [beginUpdate_get, if_neg hne]
    exact h.2 ha

theorem commitPlan_keeps (l : LoadBuffer) (s : State) : AnswerKeeps s (commitPlan l s) := by
  unfold commitPlan
  split
  · exact .still _ _ _
  · rename_i ps hps
    split
    · exact .still _ _ _
    · exact
        { load := fun _ => LoadBuffer.reset_sound
          plan := mergedPlan_sound hps
          apart := tablesApart_of_empty rfl rfl rfl }

theorem loadCommit_keeps (s : State) : AnswerKeeps s (loadCommit s) := by
  unfold loadCommit
  dsimp only
  split
  · rename_i hfull
    split
    · exact commitMap_keeps _ s
    · rename_i t ht
      exact commitTable_keeps hfull ht
    · exact commitPlan_keeps _ s
  · exact .still _ _ _

theorem tableRead_keeps (target : ReadArg) (index : Nat) (s : State) :
    AnswerKeeps s (tableRead target index s) := by
  cases target with
  | lin t =>
    simp only [tableRead]
    split
    · split <;> exact .still _ _ _
    · exact .still _ _ _
  | histogram =>
    simp only [tableRead]
    split <;> exact .still _ _ _
  | other _ => exact .still _ _ _

/-! ## The commands of the slots, the markers and the Result Queue -/

theorem slotSet_keeps (slot : Nat) (arg : SlotArg) (s : State) :
    AnswerKeeps s (slotSet slot arg s) := by
  unfold slotSet
  dsimp only
  split
  · exact .still _ _ _
  · rename_i i _
    split
    · exact .still _ _ _
    · rename_i g hg
      split
      · refine { slots := fun h j => ?_, configs := fun h j => ?_ }
        · rw [State.setSlot_slots, Bank.get_set]
          split
          · exact h i
          · exact h j
        · rw [State.setSlot_slots, Bank.get_set]
          split
          · exact SlotConfig.write_sound hg (h i)
          · exact h j
      · exact .still _ _ _

/-- A slot event answers with every invariant kept. -/
theorem AnswerKeeps.of_slotEvent {i : Fin 8} {out : SlotOut} {s : State} (code : ReplyCode)
    (fields : List Field) (hsound : SlotSound out.1) (hconfig : out.1.config = (s.slots.get i).config) :
    AnswerKeeps s ⟨slotEvent i out s, code, fields⟩ :=
  .of_runs (slotEvent_runs i out s (fun _ => hsound) hconfig) (by rw [slotEvent_queue]; exact id)

theorem startRun_state (s : State) (i : Fin 8) : (startRun s i).state = .armed := rfl

theorem startRun_config (s : State) (i : Fin 8) : (startRun s i).config = (s.slots.get i).config := rfl

theorem armSlot_keeps (slot : Nat) (s : State) : AnswerKeeps s (armSlot slot s) := by
  unfold armSlot
  split
  · exact .still _ _ _
  · rename_i i _
    dsimp only
    split
    · exact .still _ _ _
    · have hout : ∀ y : Slot, y.state = .armed → y.config = (s.slots.get i).config →
          SlotSound (if y.run.armAt = some s.queue.mark then
            (y.reachArmTime s.plan s.queue.mark, ([] : List Record)) else (y, [])).1 ∧
          (if y.run.armAt = some s.queue.mark then
            (y.reachArmTime s.plan s.queue.mark, ([] : List Record)) else (y, [])).1.config =
              (s.slots.get i).config := by
        intro y hy hc
        have hrun : y.state ≠ .idle := by rw [hy]; nofun
        split
        · exact ⟨.of_runs (Slot.reachArmTime_runs _ _ hrun), by rw [Slot.reachArmTime_config, hc]⟩
        · exact ⟨.of_runs hrun, hc⟩
      refine (fun h => AnswerKeeps.of_slotEvent _ _ h.1 h.2) (hout _ ?_ ?_)
      · split <;> rfl
      · split <;> rfl

theorem armSlotAt_keeps (slot time : Nat) (s : State) : AnswerKeeps s (armSlotAt slot time s) := by
  unfold armSlotAt
  split
  · exact .still _ _ _
  · dsimp only
    split
    · exact .still _ _ _
    · split
      · exact .still _ _ _
      · split
        · exact .still _ _ _
        · exact .of_slotEvent _ _ (.of_runs nofun) rfl

theorem stopSlot_keeps (slot : Nat) (s : State) : AnswerKeeps s (stopSlot slot s) := by
  unfold stopSlot
  split
  · exact .still _ _ _
  · split
    · exact .still _ _ _
    · rename_i out hout
      have hsound := Slot.stop_sound _ _ hout
      have hconfig := Slot.stop_config hout
      dsimp only
      refine .of_slotEvent _ _ ?_ ?_
      · split
        · exact Slot.closeGate_sound _ _ hsound
        · exact hsound
      · split
        · rw [Slot.closeGate_config, hconfig]
        · exact hconfig

theorem moveTotal_keeps {before after : SlotState} (hafter : after ≠ .idle) (slot : Nat) (s : State) :
    AnswerKeeps s (moveTotal before after slot s) := by
  unfold moveTotal
  split
  · exact .still _ _ _
  · rename_i i _
    dsimp only
    split
    · exact .still _ _ _
    · split
      · exact .still _ _ _
      · exact .of_runs (applySlot_runs i _ s (fun _ => .of_runs hafter) rfl)
          (by rw [applySlot_queue]; exact id)

theorem markerCommand_keeps {α : Type} {n : Nat} {value : Option α}
    {f : State → α → Marker → Marker} (s : State)
    (hf : ∀ v, value = some v → ∀ m, MarkerSound m → MarkerSound (f s v m)) :
    AnswerKeeps s (markerCommand n value f s) := by
  unfold markerCommand
  split
  · exact .still _ _ _
  · rename_i i _
    dsimp only
    split
    · exact .still _ _ _
    · rename_i v
      exact { setMarker_keeps i (hf v rfl _) with }

end Sys2Proof.Machine
end

section
/-!
SUPPORT. The invariants over the events, and over every row of the operation table.
-/

namespace Sys2Proof.Machine

/-! ## The ring link -/

theorem confirmFill_keeps (s : State) : Keeps s (confirmFill s) := by
  unfold confirmFill
  dsimp only
  split
  · exact (link_keeps _ s).trans (raise_keeps _ _ _)
  · exact link_keeps _ s

theorem badInLocked_keeps (s : State) : Keeps s (badInLocked s) := by
  unfold badInLocked
  dsimp only
  have hpushed := fun l => (link_keeps l s).trans (pushSlot_keeps .free _)
  split
  · exact ((hpushed _).trans (toHunt_keeps _)).trans (raise_keeps _ _ _)
  · exact hpushed _

theorem sendNotice_keeps (k : AttnKind) (s : State) : Keeps s (sendNotice k s) := by
  refine Keeps.trans (b := { s with
    command := { s.command with notices := s.command.notices.erase k } }) ?_ (transmit_keeps _ _)
  exact { notices := fun h => ⟨h.1.erase k, fun x hx => h.2 x (List.mem_of_mem_erase hx)⟩ }

theorem Reply.cells_pos (r : Reply) : 0 < r.cells := by
  unfold Reply.cells
  split <;> decide

theorem sendReply_keeps {r : Reply} {others : List Reply} {s : State}
    (hr : s.command.replies = r :: others) : Keeps s (sendReply r others s) := by
  unfold sendReply
  dsimp only
  refine Keeps.trans ?_ (transmit_keeps _ _)
  split
  · refine { replies := fun h => ⟨?_, ?_⟩ }
    · have := h.1
      rw [hr, List.length_cons] at this
      dsimp only
      omega
    · dsimp only
      split
      · rfl
      · exact Reply.cells_pos _
  · rename_i hmore
    refine { replies := fun h => ⟨h.1, ?_⟩ }
    dsimp only
    rw [hr]
    exact Nat.lt_of_not_le hmore

theorem sendRecord_keeps {r : QueueRecord} {others : List QueueRecord} {s : State}
    (hr : s.results.records = r :: others) : Keeps s (sendRecord r others s) := by
  unfold sendRecord
  dsimp only
  refine Keeps.trans ?_ (transmit_keeps _ _)
  split
  · refine { results := fun h => ⟨?_, ?_, h.2.2⟩ }
    · have := h.1
      rw [ResultQueue.occupancy, hr, cellsOf] at this
      show cellsOf others ≤ 512
      omega
    · dsimp only
      split
      · rfl
      · exact QueueRecord.size_pos _
  · rename_i hmore
    refine { results := fun h => ⟨h.1, ?_, h.2.2⟩ }
    dsimp only
    rw [hr]
    exact Nat.lt_of_not_le hmore

theorem fillFreeSlot_keeps (s : State) : Keeps s (fillFreeSlot s) := by
  unfold fillFreeSlot
  split
  · exact sendNotice_keeps _ s
  · exact sendReply_keeps (by assumption)
  · exact sendRecord_keeps (by assumption)
  · exact transmit_keeps _ s

/-! ## Edges -/

theorem setStatus_keeps (c : Fin 16) {st : ChanStatus} {s : State}
    (h : ChannelSound (s.channels.get c) → ChannelSound { s.channels.get c with status := st }) :
    Keeps s (setStatus c st s) := setChannel_keeps c h

theorem stampEdge_keeps (c : Fin 16) (label : Sense) (coarse16 : BitVec 16) (fine : Fin 256)
    (lost : Bool) (arrival s : State) : Keeps s (stampEdge c label coarse16 fine lost arrival s) := by
  unfold stampEdge
  dsimp only
  have hjudged : ∀ stamp, Keeps s (setStatus c
      (judgeStamp (s.channels.get c).set (s.channels.get c).status stamp).2 s) :=
    fun stamp => setStatus_keeps c (judgeStamp_sound stamp)
  split
  · exact (hjudged _).trans (raise_keeps _ _ _)
  · exact hjudged _
  · exact hjudged _
  · exact (hjudged _).trans (arrive_keeps _ _)

theorem channelEdge_keeps (c : Fin 16) (sense : Sense) (coarse16 : BitVec 16) (fine : Fin 256)
    (lost : Bool) (s : State) : Keeps s (channelEdge c sense coarse16 fine lost s) := by
  have hentered : ∀ label, Keeps s (setStatus c ((s.channels.get c).status.enter label lost) s) :=
    fun label => setStatus_keeps c id
  unfold channelEdge
  dsimp only
  split
  · split
    · exact ((hentered _).trans (calibrationTap_keeps _ _ _)).trans (stampEdge_keeps _ _ _ _ _ _ _)
    · exact hentered _
  · exact .refl s

/-! ## Epoch cells -/

theorem discardQueue_keeps (f : Stamp) (s : State) : Keeps s (discardQueue f s) :=
  { order := fun _ => orderSound_of_empty f }

theorem stepActions_keeps (s : State) : Keeps s (stepActions s) := by
  have hslots : Keeps s (endSlotsOnStep s) :=
    (endSlotsOnStep_runs s).keeps_of_queue (foldl_queue (fun _ _ => applySlot_queue _ _ _) _ _)
  have hchannels : ∀ u : State, Keeps u { u with channels := u.channels.map Channel.epochStep } :=
    fun u =>
      { channels := fun h n => by
          show ChannelSound ((u.channels.map Channel.epochStep).get n)
          rw [Bank.get_map]
          exact Channel.epochStep_sound (h n) }
  exact ((hslots.trans (discardQueue_keeps _ _)).trans (hchannels _)).trans
    ((refreshTimebaseMarkers_runs _).keeps_of_queue rfl)

theorem saturateOffset_in_range (d : Int) : -32768 ≤ saturateOffset d ∧ saturateOffset d ≤ 32767 := by
  unfold saturateOffset
  omega

theorem takeEpoch_keeps (e : Coarse) (s : State) : Keeps s (takeEpoch e s) := by
  have hset : ∀ t : Timebase, (TimebaseSound s.timebase → TimebaseSound t) →
      Keeps s { s with timebase := t } := fun t h => { timebase := h }
  have hstep : ∀ (t : Timebase) (k : AttnKind) (d : List Field),
      (TimebaseSound s.timebase → TimebaseSound t) →
        Keeps s (raise k d (stepActions { s with timebase := t })) := fun t k d h =>
    ((hset t h).trans (stepActions_keeps _)).trans (raise_keeps k d _)
  unfold takeEpoch
  dsimp only
  split
  · exact hstep _ _ _ fun h => ⟨h.1, h.2.1, by dsimp only; decide, by dsimp only; decide, by simp⟩
  · rename_i hepoch
    split
    · rename_i hd
      exact hset _ fun h => ⟨h.1, h.2.1, by dsimp only; omega, by dsimp only; omega, by simp [hepoch]⟩
    · exact hstep _ _ _ fun h =>
        ⟨h.1, h.2.1, (saturateOffset_in_range _).1, (saturateOffset_in_range _).2, by simp [hepoch]⟩

/-! ## The end of a coarse period -/

/-- The tables, an update that has run its 500 periods being among the events `es` that are still to be taken. -/
def TablesDue (es : List PeriodEvent) (s : State) : Prop :=
  ∀ n, Rising (s.tables.get n).entries ∧
    ∀ c m, (s.tables.get n).phase = .updating c m → Rising m ∧ (c < 500 ∨ .updateEnd n ∈ es)

/-- The calibration, the time limit being among the events `es` that are still to be taken where it is reached. -/
def CalDue (es : List PeriodEvent) (g : Calibration) : Prop :=
  g.bins.cells.sum = g.hits ∧
    (g.active = true →
      g.outcome = .running ∧ g.hits < 2 ^ g.k ∧ (g.elapsed < g.limit ∨ .calTimeout ∈ es)) ∧
    (g.active = false → g.outcome ≠ .running)

theorem TableSound.iff {x : Table} :
    TableSound x ↔ Rising x.entries ∧ ∀ c m, x.phase = .updating c m → c < 500 ∧ Rising m := by
  unfold TableSound
  split
  · rename_i n m hp
    rw [hp]
    refine and_congr_right fun _ => ⟨fun h c m' e => ?_, fun h => h _ _ rfl⟩
    cases e
    exact h
  · rename_i hp
    rw [hp]
    exact and_congr_right fun _ => ⟨fun _ _ _ => nofun, fun _ => trivial⟩
  · rename_i hp
    rw [hp]
    exact and_congr_right fun _ => ⟨fun _ _ _ => nofun, fun _ => trivial⟩

theorem TablesDue.sound {s : State} (h : TablesDue [] s) (n : Fin 8) : TableSound (s.tables.get n) :=
  TableSound.iff.mpr ⟨(h n).1, fun c m hp =>
    ⟨((h n).2 c m hp).2.resolve_right List.not_mem_nil, ((h n).2 c m hp).1⟩⟩

theorem CalDue.sound {g : Calibration} (h : CalDue [] g) : CalSound g :=
  ⟨h.1, fun ha => ⟨(h.2.1 ha).1, (h.2.1 ha).2.1, (h.2.1 ha).2.2.resolve_right List.not_mem_nil⟩,
    h.2.2⟩

/-- Nothing is lost in a choice: what is not chosen is among the others. -/
theorem choose_perm {α : Type} {n m : Nat} {l others : List α} {a : α}
    (h : choose n l = some (a, others, m)) : (a :: others).Perm l := by
  unfold choose at h
  split at h
  · cases h
  · cases h
    exact .refl _
  · rename_i x y rest
    cases h
    have hk : Config.pick n % (x :: y :: rest).length < (x :: y :: rest).length :=
      Nat.mod_lt _ (Nat.succ_pos _)
    rw [List.getD_eq_getElem _ _ hk]
    exact List.getElem_cons_eraseIdx_perm hk

theorem takePeriodEvent_rest (e : PeriodEvent) (s : State) : KeepsRest s (takePeriodEvent e s) := by
  cases e with
  | updateEnd t =>
    simp only [takePeriodEvent]
    split
    · rename_i m hm
      exact (endUpdate_keeps hm).toKeepsRest
    · exact (Keeps.refl s).toKeepsRest
  | calTimeout => exact (expireCalibration_keeps s).toKeepsRest

theorem takePeriodEvent_tables {e : PeriodEvent} {es others : List PeriodEvent} {s : State}
    (hes : ∀ x ∈ es, x = e ∨ x ∈ others) (h : TablesDue es s) :
    TablesDue others (takePeriodEvent e s) := by
  cases e with
  | updateEnd t =>
    simp only [takePeriodEvent]
    split
    · rename_i m hm
      obtain ⟨c, hphase, -⟩ := updateDone_some hm
      intro n
      rw [endUpdate, raise_tables, State.setTable_tables, Bank.get_set]
      split
      · exact ⟨((h t).2 c m hphase).1, fun _ _ => nofun⟩
      · rename_i hne
        refine ⟨(h n).1, fun c m hp => ⟨((h n).2 c m hp).1, ?_⟩⟩
        rcases ((h n).2 c m hp).2 with hlt | hmem
        · exact .inl hlt
        · rcases hes _ hmem with he | ho
          · cases he
            exact absurd rfl hne
          · exact .inr ho
    · rename_i hnone
      intro n
      refine ⟨(h n).1, fun c m hp => ⟨((h n).2 c m hp).1, ?_⟩⟩
      rcases ((h n).2 c m hp).2 with hlt | hmem
      · exact .inl hlt
      · rcases hes _ hmem with he | ho
        · cases he
          refine .inl (Nat.lt_of_not_le fun hle => ?_)
          simp [Table.updateDone, hp, Config.updatePeriods, hle] at hnone
        · exact .inr ho
  | calTimeout =>
    intro n
    refine ⟨(h n).1, fun c m hp => ⟨((h n).2 c m hp).1, ?_⟩⟩
    rcases ((h n).2 c m hp).2 with hlt | hmem
    · exact .inl hlt
    · rcases hes _ hmem with he | ho
      · cases he
      · exact .inr ho

theorem takePeriodEvent_cal {e : PeriodEvent} {es others : List PeriodEvent} {s : State}
    (hes : ∀ x ∈ es, x = e ∨ x ∈ others) (h : CalDue es s.cal) :
    CalDue others (takePeriodEvent e s).cal := by
  cases e with
  | updateEnd t =>
    have hsame : (takePeriodEvent (.updateEnd t) s).cal = s.cal := by
      simp only [takePeriodEvent]
      split <;> rfl
    rw [hsame]
    refine ⟨h.1, fun ha => ⟨(h.2.1 ha).1, (h.2.1 ha).2.1, ?_⟩, h.2.2⟩
    rcases (h.2.1 ha).2.2 with hlt | hmem
    · exact .inl hlt
    · rcases hes _ hmem with he | ho
      · cases he
      · exact .inr ho
  | calTimeout => exact ⟨h.1, nofun, fun _ => nofun⟩

/-- Once every due event is taken, the tables and the calibration are sound again. -/
theorem takePeriodEvents_sound {fuel : Nat} {es : List PeriodEvent} {s : State}
    (hfuel : es.length ≤ fuel) :
    KeepsRest s (takePeriodEvents fuel es s) ∧
      (TablesDue es s → TablesDue [] (takePeriodEvents fuel es s)) ∧
      (CalDue es s.cal → CalDue [] (takePeriodEvents fuel es s).cal) := by
  induction fuel generalizing es s with
  | zero =>
    rw [List.length_eq_zero_iff.mp (Nat.le_zero.mp hfuel)]
    exact ⟨(Keeps.refl s).toKeepsRest, id, id⟩
  | succ fuel ih =>
    unfold takePeriodEvents
    split
    · rename_i hnone
      have hnil : es = [] := by
        match es with
        | [] => rfl
        | [x] => cases hnone
        | x :: y :: rest => cases hnone
      rw [hnil]
      exact ⟨(Keeps.refl s).toKeepsRest, id, id⟩
    · rename_i e others n hchoose
      have hperm := choose_perm hchoose
      have hes : ∀ x ∈ es, x = e ∨ x ∈ others := fun x hx => List.mem_cons.mp (hperm.mem_iff.mpr hx)
      have hlen : others.length ≤ fuel := by
        have := hperm.length_eq
        rw [List.length_cons] at this
        omega
      obtain ⟨hrest, htables, hcal⟩ := ih hlen (s := takePeriodEvent e { s with choices := n })
      exact ⟨((choices_keeps n s).toKeepsRest.trans (takePeriodEvent_rest e _)).trans hrest,
        fun h => htables (takePeriodEvent_tables (s := { s with choices := n }) hes h),
        fun h => hcal (takePeriodEvent_cal (s := { s with choices := n }) hes h)⟩

theorem countPeriod_isUpdating (x : Table) : x.countPeriod.isUpdating = x.isUpdating := by
  cases hp : x.phase <;> simp [Table.countPeriod, Table.isUpdating, hp]

theorem advanceCounts_rest (s : State) : KeepsRest s (advanceCounts s) :=
  { apart := tablesApart_of_updating rfl (fun ha => ⟨ha, rfl⟩) fun n hn => by
      show ((s.tables.map Table.countPeriod).get n).isUpdating = false
      rw [Bank.get_map, countPeriod_isUpdating, hn] }

theorem mem_periodEvents_updateEnd {s : State} {n : Fin 8} {c : Nat} {m : Entries}
    (hp : (s.tables.get n).phase = .updating c m) (hc : 500 ≤ c) : .updateEnd n ∈ periodEvents s := by
  have hdone : ((s.tables.get n).updateDone Config.updatePeriods).isSome = true := by
    simp [Table.updateDone, hp, Config.updatePeriods, hc]
  refine List.mem_append_left _ (List.mem_map_of_mem ?_)
  exact List.mem_filter.mpr ⟨List.mem_finRange n, hdone⟩

theorem mem_periodEvents_calTimeout {s : State} (ha : s.cal.active = true)
    (hl : s.cal.limit ≤ s.cal.elapsed) : .calTimeout ∈ periodEvents s := by
  refine List.mem_append_right _ ?_
  simp [ha, hl]

/-- After the counts have advanced, what is not sound any more is due. -/
theorem tablesDue_of_advanced {s u : State} (hu : u.tables = (advanceCounts s).tables)
    (h : ∀ n, TableSound (s.tables.get n)) : TablesDue (periodEvents u) u := by
  intro n
  have hget : u.tables.get n = (s.tables.get n).countPeriod := by
    rw [hu]
    exact Bank.get_map _ _ _
  obtain ⟨hentries, hphase⟩ := TableSound.iff.mp (h n)
  rw [hget]
  cases hp : (s.tables.get n).phase with
  | updating c m =>
    have hcount : (s.tables.get n).countPeriod = { s.tables.get n with phase := .updating (c + 1) m } := by
      simp [Table.countPeriod, hp]
    rw [hcount]
    refine ⟨hentries, fun c' m' e => ?_⟩
    cases e
    refine ⟨(hphase c m hp).2, ?_⟩
    by_cases hlt : c + 1 < 500
    · exact .inl hlt
    · exact .inr (mem_periodEvents_updateEnd (c := c + 1) (m := m) (by rw [hget, hcount])
        (Nat.le_of_not_lt hlt))
  | nominal | loaded =>
    have hcount : (s.tables.get n).countPeriod = s.tables.get n := by simp [Table.countPeriod, hp]
    rw [hcount]
    exact ⟨hentries, fun c m e => by rw [hp] at e; cases e⟩

theorem calDue_of_advanced {s u : State} (hu : u.cal = (advanceCounts s).cal) (h : CalSound s.cal) :
    CalDue (periodEvents u) u.cal := by
  obtain ⟨hsum, hactive, hidle⟩ := h
  have hdue : u.cal.active = true → (u.cal.elapsed < u.cal.limit ∨ .calTimeout ∈ periodEvents u) :=
    fun ha => (Nat.lt_or_ge u.cal.elapsed u.cal.limit).imp_right (mem_periodEvents_calTimeout ha)
  rw [hu] at hdue ⊢
  exact ⟨hsum, fun ha => ⟨(hactive ha).1, (hactive ha).2.1, hdue ha⟩, hidle⟩

theorem markerTime_keeps (n : Nat) (s : State) : Keeps s { s with markerTime := n } := {}

theorem endMarkerPeriod_keeps (s : State) : Keeps s (endMarkerPeriod s) := by
  have hsettled := (Runs.foldl settleMarker_runs allMarkers s).trans (showPins_runs _)
  have hqueue : (showPins (allMarkers.foldl settleMarker s)).queue = s.queue := by
    rw [showPins_queue]
    refine foldl_queue (fun s i => ?_) _ _
    unfold settleMarker
    dsimp only
    split <;> rfl
  exact (hsettled.keeps_of_queue hqueue).trans (markerTime_keeps _ _)

/-- The state in which the counts have advanced and the TIMEBASE markers taken their requests (R1, R150). -/
def counted (s : State) : State := refreshTimebaseMarkers (advanceCounts s)

/-- The state in which the frontier has advanced as well (R81). -/
def advanced (s : State) : State := frontierAdvance (counted s).timebase.frontier (counted s)

theorem endPeriod_eq (s : State) :
    endPeriod s =
      endMarkerPeriod
        (takePeriodEvents (periodEvents (advanced s)).length (periodEvents (advanced s))
          (advanced s)) := rfl

theorem counted_rest (s : State) : KeepsRest s (counted s) :=
  (advanceCounts_rest s).trans
    ((refreshTimebaseMarkers_runs (advanceCounts s)).keeps_of_queue rfl).toKeepsRest

theorem advanced_runs (s : State) : Runs (counted s) (advanced s) := frontierAdvance_runs _ _

theorem endPeriod_keeps (s : State) : Keeps s (endPeriod s) := by
  rw [endPeriod_eq]
  have hsame := (advanced_runs s).moves.same
  obtain ⟨hrest, htables, hcal⟩ :=
    takePeriodEvents_sound (s := advanced s) (le_refl (periodEvents (advanced s)).length)
  have hbefore : KeepsRest s (advanced s) :=
    (counted_rest s).trans (frontierAdvance_keeps _ _).toKeepsRest
  have htablesDue : (∀ n, TableSound (s.tables.get n)) →
      TablesDue (periodEvents (advanced s)) (advanced s) :=
    tablesDue_of_advanced (hsame.tables.trans (refreshTimebaseMarkers_tables _))
  have hcalDue : CalSound s.cal → CalDue (periodEvents (advanced s)) (advanced s).cal :=
    calDue_of_advanced (hsame.cal.trans (refreshTimebaseMarkers_cal _))
  have hevents := hbefore.trans hrest
  refine Keeps.trans ⟨hevents, fun h => ?_, fun h => ?_⟩ (endMarkerPeriod_keeps _)
  · exact (htables (htablesDue h)).sound
  · exact (hcal (hcalDue h)).sound

end Sys2Proof.Machine
end

section
/-!
SUPPORT. The invariants over every row, and over a step (R22 is settled above): O57 to O60, and the rows that go on.
-/

namespace Sys2Proof.Machine

/-- The row answers a next state in which every invariant is kept. -/
def RowKeeps (s : State) (o : Host.Outcome State Fault Refusal) : Prop := ∃ t, o = .next t ∧ Keeps s t

theorem RowKeeps.next {s t : State} (h : Keeps s t) : RowKeeps s (.next t) := ⟨t, rfl, h⟩

theorem RowKeeps.command {code : Nat} {judge : Bool → State → Answer} {c : Cell} {s : State}
    (hj : ∀ b t, AnswerKeeps t (judge b t)) : RowKeeps s (.next (takeCommand code c judge s)) :=
  .next (takeCommand_keeps_all c s hj)

theorem RowKeeps.guarded {s t : State} {p : Prop} [Decidable p] (h : Keeps s t) :
    RowKeeps s (.next (if p then t else s)) := .next h.guarded

theorem execLinkSilentCellTime_keeps (s : State) : RowKeeps s (execLinkSilentCellTime s) := by
  unfold execLinkSilentCellTime
  split
  · exact .next (.refl s)
  · split
    · exact .next (.refl s)
    · exact .next (toHunt_keeps s)
    · exact .next (badInLocked_keeps s)

theorem execFillCell_keeps (s : State) : RowKeeps s (execFillCell s) := by
  unfold execFillCell
  split
  · exact .next (.refl s)
  · split
    · exact .next (.refl s)
    · exact .next (confirmFill_keeps s)
    · exact .next ((link_keeps _ s).trans (pushSlot_keeps _ _))

theorem execTransmitSlotDue_keeps (s : State) : RowKeeps s (execTransmitSlotDue s) := by
  unfold execTransmitSlotDue
  split
  · exact .next (transmit_keeps _ s)
  · split
    · exact .next ((link_keeps _ s).trans (transmit_keeps _ _))
    · exact .next ((link_keeps _ s).trans (fillFreeSlot_keeps _))
    · split
      · exact .next (.refl s)
      · exact .next (fillFreeSlot_keeps s)

theorem execEdgeCell_keeps (c : Cell) (slice : Fin 32) (lane : Fin 4) (sense : Sense)
    (coarse16 : BitVec 16) (fine : Fin 256) (lost : Bool) (s : State) :
    RowKeeps s (execEdgeCell c slice lane sense coarse16 fine lost s) := by
  refine .next (receive_keeps s fun t => ?_)
  dsimp only
  split
  · exact pushSlot_keeps _ t
  · exact (pushSlot_keeps _ t).trans (channelEdge_keeps _ _ _ _ _ _)
  · exact (pushSlot_keeps _ t).trans (channelEdge_keeps _ _ _ _ _ _)

theorem execTableUpdateEnd_keeps (t : Fin 8) (s : State) : RowKeeps s (execTableUpdateEnd t s) := by
  unfold execTableUpdateEnd
  split
  · rename_i hm
    split
    · exact .next (.refl s)
    · exact .next (endUpdate_keeps hm)
  · exact .next (.refl s)

theorem reachBoundary_keeps (k : Boundary) (i : Fin 8) (s : State) : Keeps s (reachBoundary k i s) := by
  unfold reachBoundary
  split
  · rename_i b _ hb
    split
    · exact .refl s
    · have hdue : b ∈ (s.slots.get i).due s.queue.mark :=
        List.mem_of_mem_filter (by rw [hb]; exact List.mem_cons_self)
      exact (takeSlotBoundary_runs i b s (Slot.runs_of_due hdue)).keeps_of_queue (applySlot_queue _ _ _)
  · exact .refl s

theorem execIdent_keeps (c : Cell) (item : Nat) (s : State) : RowKeeps s (execIdent c item s) := by
  refine .command fun _ t => ?_
  split <;> exact .still _ _ _

theorem execStatus_keeps (c : Cell) (item : StatusItem) (s : State) :
    RowKeeps s (execStatus c item s) := by
  refine .command fun _ t => ?_
  split <;> exact .still _ _ _

theorem execSlotGet_keeps (c : Cell) (slot : Nat) (item : SlotItem) (s : State) :
    RowKeeps s (execSlotGet c slot item s) := by
  refine .command fun _ t => ?_
  split
  · exact .still _ _ _
  · split <;> exact .still _ _ _

theorem execQueueSet_keeps (c : Cell) (threshold : Nat) (s : State) :
    RowKeeps s (execQueueSet c threshold s) := by
  refine .command fun _ t => ?_
  dsimp only
  split
  · rename_i hb
    obtain ⟨hlo, hhi⟩ := between_iff.mp hb
    exact { results := fun h => ⟨h.1, h.2.1, h.2.2.1, h.2.2.2.1, hlo, hhi⟩ }
  · exact .still _ _ _

/-- Every row but the two of RESETn keeps every invariant. -/
theorem exec_keeps (i : Instr) (s : State) (hp : i ≠ .powerOnReset) (hr : i ≠ .resetRelease) :
    RowKeeps s (exec i s) := by
  cases i with
  | powerOnReset => exact absurd rfl hp
  | resetRelease => exact absurd rfl hr
  -- the ring link
  | huntCellStart _ => exact .guarded (link_keeps _ s)
  | confirmingFillCell => exact .guarded (confirmFill_keeps s)
  | confirmingOtherCell => exact .guarded (toHunt_keeps s)
  | linkSilentCellTime => exact execLinkSilentCellTime_keeps s
  | fillCell => exact execFillCell_keeps s
  | badCell => exact execLinkSilentCellTime_keeps s
  | relayCell c => exact .next (receive_keeps s (pushSlot_keeps (.relay c)))
  | transmitSlotDue => exact execTransmitSlotDue_keeps s
  -- edges, epochs and the events of time
  | edgeCell c slice lane sense coarse16 fine lost =>
    exact execEdgeCell_keeps c slice lane sense coarse16 fine lost s
  | epochCell c e =>
    exact .next (receive_keeps s fun t => (pushSlot_keeps _ t).trans (takeEpoch_keeps e _))
  | timebaseAdvance =>
    change RowKeeps s (execTimebaseAdvance s)
    unfold execTimebaseAdvance
    split
    · exact .next (.refl s)
    · exact .next (endPeriod_keeps s)
  | armPointReached i => exact .next (reachBoundary_keeps _ i s)
  | gateCloseReached i => exact .next (reachBoundary_keeps _ i s)
  | closeTimeoutExpiry i => exact .next (reachBoundary_keeps _ i s)
  | planStepEnd i => exact .next (reachBoundary_keeps _ i s)
  | tableUpdateEnd t => exact execTableUpdateEnd_keeps t s
  | calCompletion => exact .next (execCalCompletion_keeps s)
  | calTimeout => exact .guarded (expireCalibration_keeps s)
  | markerHoldExpiry m =>
    exact .guarded (setMarker_keeps m fun h => Marker.act_sound _ h.ready)
  | donePulseEnd m => exact .guarded (setMarker_keeps m (Marker.endPulse_sound _))
  -- the commands of the node and the Command Unit
  | name _ address => exact .command fun b => nameNode_keeps address b
  | mode _ state => exact .command fun _ => setMode_keeps state
  | ident c item => exact execIdent_keeps c item s
  | nodeReset _ => exact .command fun _ t => nodeReset_keeps _ t _ _
  | status c item => exact execStatus_keeps c item s
  | clear _ kinds linkErrors => exact .command fun _ => clearAttentions_keeps kinds linkErrors
  | attnSet _ enables notices mute => exact .command fun _ => setAttentions_keeps enables notices mute
  | unknownCommand _ _ => exact .command fun _ t => .still t _ _
  -- the commands of the Timebase and the channels
  | timeSetHorizon _ n => exact .command fun _ => setHorizon_keeps n
  | timeSetTrim _ n => exact .command fun _ => setTrim_keeps n
  | timeSetReport _ => exact .command fun _ t => .still t _ _
  | timeSetCount _ => exact .command fun _ t => .still t _ _
  | chanWrite _ channel arg => exact .command fun _ => chanWrite_keeps channel arg
  | chanRead _ channel item => exact .command fun _ => chanRead_keeps channel item
  -- the loads, the tables and the calibration
  | loadOpen _ target first count => exact .command fun _ => loadOpen_keeps target first count
  | loadData _ words => exact .command fun _ => loadData_keeps words
  | loadCommit _ => exact .command fun _ => loadCommit_keeps
  | loadCancel _ => exact .command fun _ t => loadCancel_keeps t _ _
  | tableRead _ target index => exact .command fun _ => tableRead_keeps target index
  | calRun c table channel k timeout emptyLimit =>
    exact .next (takeCommand_keeps_of c s fun _ t h =>
      calRun_keeps table channel k timeout emptyLimit (h rfl))
  | calCancel _ => exact .command fun _ => calCancel_keeps
  -- the commands of the slots, the markers and the Result Queue
  | slotSet _ slot arg => exact .command fun _ => slotSet_keeps slot arg
  | slotGet c slot item => exact execSlotGet_keeps c slot item s
  | arm _ slot => exact .command fun _ => armSlot_keeps slot
  | armAt _ slot time => exact .command fun _ => armSlotAt_keeps slot time
  | stop _ slot => exact .command fun _ => stopSlot_keeps slot
  | hold _ slot => exact .command fun _ => moveTotal_keeps (after := .held) nofun slot
  | resume _ slot => exact .command fun _ => moveTotal_keeps (after := .totalCounting) nofun slot
  | markSetSource _ marker source =>
    exact .command fun _ t => markerCommand_keeps t fun _ hv _ => Marker.setSource_sound t hv
  | markSetInvert _ marker value =>
    exact .command fun _ t => markerCommand_keeps t fun v _ _ => Marker.setInvert_sound t v
  | markSetWidth _ marker width =>
    refine .command fun _ t => markerCommand_keeps t fun v hv _ => Marker.setWidth_sound t ?_
    split at hv
    · rename_i hw
      cases hv
      exact hw
    · cases hv
  | markLevel _ marker level =>
    exact .command fun _ t => markerCommand_keeps t fun v _ _ => Marker.setHeld_sound t v
  | queueSet c threshold => exact execQueueSet_keeps c threshold s

/-! ## RESETn (R177) -/

/-- While RESETn is low the part is as it was after every row but those of RESETn, and the transmit link sends
FILL (R16, R159, R177). -/
theorem exec_of_held {i : Instr} {s : State} (h : s.held = true) (hp : i ≠ .powerOnReset)
    (hr : i ≠ .resetRelease) : exec i s = .next s ∨ exec i s = .next (transmit .fill s) := by
  have hreceive : ∀ f, receive f s = s := fun f => receive_held h
  have hcommand : ∀ code c judge, takeCommand code c judge s = s := fun _ _ _ => receive_held h
  cases i with
  | powerOnReset => exact absurd rfl hp
  | resetRelease => exact absurd rfl hr
  | transmitSlotDue =>
    right
    change execTransmitSlotDue s = _
    rw [execTransmitSlotDue, if_pos h]
  | timebaseAdvance =>
    left
    change execTimebaseAdvance s = _
    rw [execTimebaseAdvance, if_pos h]
  | huntCellStart _ | confirmingFillCell | confirmingOtherCell | linkSilentCellTime | fillCell |
    badCell | calCompletion | calTimeout | markerHoldExpiry _ | donePulseEnd _ =>
    left
    simp [exec, execHuntCellStart, execConfirmingFillCell, execConfirmingOtherCell,
      execLinkSilentCellTime, execFillCell, execBadCell, execCalCompletion, execCalTimeout,
      execMarkerHoldExpiry, execDonePulseEnd, h]
  | armPointReached _ | gateCloseReached _ | closeTimeoutExpiry _ | planStepEnd _ =>
    left
    refine congrArg Host.Outcome.next ?_
    unfold reachBoundary
    split
    · rw [if_pos h]
    · rfl
  | tableUpdateEnd _ =>
    left
    refine congrArg Host.Outcome.next ?_
    split
    · rw [if_pos h]
    · rfl
  | relayCell _ | edgeCell _ _ _ _ _ _ _ | epochCell _ _ =>
    exact .inl (congrArg Host.Outcome.next (hreceive _))
  | _ => exact .inl (congrArg Host.Outcome.next (hcommand _ _ _))

theorem exec_heldSound {i : Instr} {s t : State} (h : exec i s = .next t) (hs : HeldSound s) :
    HeldSound t := by
  by_cases hp : i = .powerOnReset
  · cases hp
    cases h
    exact fun _ => rfl
  by_cases hr : i = .resetRelease
  · cases hr
    cases h
    exact nofun
  obtain ⟨u, hu, hkeeps⟩ := exec_keeps i s hp hr
  cases hu.symm.trans h
  intro ht
  have hheld : s.held = true := hkeeps.held ▸ ht
  rcases exec_of_held hheld hp hr with he | he <;> cases he.symm.trans h
  · exact hs hheld
  · rw [hs hheld]
    rfl

/-! ## Every row and every step -/

/-- Settles O2: the rows of RESETn write the whole state down, and every other row keeps the waiting commands
(`exec_keeps`). -/
theorem everyRowGoesOn : Obligations.EveryRowGoesOn := by
  unfold Obligations.EveryRowGoesOn
  intro i s
  by_cases hp : i = .powerOnReset
  · cases hp
    exact ⟨_, rfl, rfl⟩
  by_cases hr : i = .resetRelease
  · cases hr
    exact ⟨_, rfl, rfl⟩
  obtain ⟨t, ht, hkeeps⟩ := exec_keeps i s hp hr
  exact ⟨t, ht, hkeeps.pending⟩

/-- Settles O60: the power-on values of each block are sound. -/
theorem resetMeetsTheInvariants : Obligations.ResetMeetsTheInvariants :=
  ⟨mapSound_power_on, orderSound_of_empty _, ResultQueue.reset_sound, CommandUnit.reset_repliesSound,
    CommandUnit.reset_noticesSound, LoadBuffer.reset_sound, tables_reset_sound, Calibration.reset_sound,
    tablesApart_of_idle rfl rfl, slots_reset_sound, configs_reset_sound, plan_reset_sound, rfl,
    Timebase.reset_sound, channels_reset_sound, markers_reset_sound, nofun⟩

/-- What a step does: nothing, a power-on reset, the release of RESETn, or a row that keeps every invariant. -/
theorem step_cases {s t : State} (h : step s = .next t) :
    t = { State.reset with pending := t.pending, choices := t.choices, held := true } ∨
      Keeps s { t with pending := s.pending, held := s.held } := by
  unfold step at h
  split at h
  · cases h
    exact .inr (.refl s)
  · rename_i i others _
    by_cases hp : i = .powerOnReset
    · cases hp
      cases h
      exact .inl rfl
    by_cases hr : i = .resetRelease
    · cases hr
      cases h
      exact .inr {}
    obtain ⟨u, hu, hkeeps⟩ := exec_keeps i { s with pending := others } hp hr
    cases hu.symm.trans h
    exact .inr { hkeeps with pending := rfl, held := rfl }

/-- Settles O57: a power-on reset empties the queue, and every other row keeps it in order, the releases and the
arrivals among them (`frontierAdvance_orderSound`, `arrive_orderSound`). -/
theorem everyStepKeepsTheOrderingQueueInOrder : Obligations.EveryStepKeepsTheOrderingQueueInOrder := by
  unfold Obligations.EveryStepKeepsTheOrderingQueueInOrder
  intro s t hs h
  rcases step_cases h with ht | hkeeps
  · rw [ht]
    exact orderSound_of_empty _
  · exact hkeeps.order hs

/-- Settles O58: the power-on values are sound, and every other row keeps each queue sound (`exec_keeps`). -/
theorem everyStepKeepsTheQueuesSound : Obligations.EveryStepKeepsTheQueuesSound := by
  unfold Obligations.EveryStepKeepsTheQueuesSound
  intro s t h
  rcases step_cases h with ht | hkeeps
  · rw [ht]
    exact ⟨fun _ => ResultQueue.reset_sound, fun _ => CommandUnit.reset_repliesSound,
      fun _ => CommandUnit.reset_noticesSound, fun _ => LoadBuffer.reset_sound⟩
  · exact ⟨hkeeps.results, hkeeps.replies, hkeeps.notices, hkeeps.load⟩

theorem step_heldSound {s t : State} (h : step s = .next t) (hs : HeldSound s) : HeldSound t := by
  unfold step at h
  split at h
  · cases h
    exact hs
  · rename_i i others _
    exact exec_heldSound h fun hheld =>
      congrArg (fun u : State => { u with pending := others }) (hs hheld)

/-- Settles O59: likewise for the blocks, and for RESETn by what a row can do while it is low (`exec_of_held`). -/
theorem everyStepKeepsTheBlocksSound : Obligations.EveryStepKeepsTheBlocksSound := by
  unfold Obligations.EveryStepKeepsTheBlocksSound
  intro s t h
  have hheld := step_heldSound h
  rcases step_cases h with ht | hkeeps
  · refine ⟨?_, ?_, ?_, ?_, ?_, ?_, ?_, ?_, ?_, ?_, hheld⟩ <;> rw [ht]
    · exact fun _ => tables_reset_sound
    · exact fun _ => Calibration.reset_sound
    · exact fun _ => tablesApart_of_idle rfl rfl
    · exact fun _ => slots_reset_sound
    · exact fun _ => configs_reset_sound
    · exact fun _ => plan_reset_sound
    · exact fun _ => rfl
    · exact fun _ => Timebase.reset_sound
    · exact fun _ => channels_reset_sound
    · exact fun _ => markers_reset_sound
  · exact ⟨hkeeps.tables, hkeeps.cal, hkeeps.apart, hkeeps.slots, hkeeps.configs, hkeeps.plan,
      hkeeps.node, hkeeps.timebase, hkeeps.channels, hkeeps.markers, hheld⟩

end Sys2Proof.Machine
end

section
/-!
SUPPORT. The machine's step, the resets (R16, R146, R177), and the ring link's alignment and cells (R156 to R159).
-/

namespace Sys2Proof.Machine

/-- Settles O1: `step` by its definition, on the front command and on the empty queue. -/
theorem stepTakesFrontCommand : Obligations.StepTakesFrontCommand := by
  unfold Obligations.StepTakesFrontCommand
  refine ⟨fun i others s h => ?_, fun i s => rfl, fun s h => ?_⟩ <;> rw [step, h]

/-! ## Resets -/

/-- Settles O3: each value of the reset state as its definition gives it. -/
theorem powerOnResetAndRelease : Obligations.PowerOnResetAndRelease := by
  unfold Obligations.PowerOnResetAndRelease
  refine ⟨fun s => ⟨_, rfl, rfl, rfl, rfl, rfl, rfl, rfl, fun i => Bank.get_fill _ _, fun c => ?_,
    fun n => ?_, rfl, fun b => Bank.get_fill _ _, rfl, rfl, fun i => Bank.get_fill _ _,
    fun n => Bank.get_fill _ _, rfl, rfl, fun m => Bank.get_fill _ _, rfl, rfl, rfl, rfl, rfl,
    fun k => Bank.get_fill _ _⟩, fun s => rfl⟩
  · have hc : State.reset.channels.get c = Channel.reset c := Bank.get_tabulate _ _
    dsimp only
    rw [hc]
    exact ⟨rfl, rfl, rfl, rfl, rfl, rfl, rfl, rfl, rfl, rfl, rfl, rfl, rfl, rfl⟩
  · have ht : State.reset.tables.get n = Table.reset := Bank.get_fill _ _
    dsimp only
    rw [ht]
    refine ⟨rfl, fun f => ?_⟩
    rw [Table.reset, Bank.get_tabulate, nominalFraction_toNat]

/-- A marker as a node reset leaves it before the width rule (R146, R177). -/
def Marker.cleared (m : Marker) : Marker :=
  { Marker.reset with
    pin := m.pin, shown := m.shown, lastTransition := m.lastTransition
    resetHold := some (m.lastTransition + m.width) }

theorem Marker.nodeReset_eq (now : Nat) (m : Marker) : m.nodeReset now = m.cleared.act now := rfl

/-- A marker over a node reset, but for the pin (R146, R177). -/
theorem Marker.nodeReset_frame (now : Nat) (m : Marker) :
    (m.nodeReset now).source = .off ∧ (m.nodeReset now).invert = false ∧
      (m.nodeReset now).width = 0 ∧ (m.nodeReset now).held = false ∧
      (m.nodeReset now).request = false ∧ (m.nodeReset now).pulseEnd = none ∧
      (m.nodeReset now).shown = m.shown := by
  rw [Marker.nodeReset_eq, Marker.act_frame]
  exact ⟨rfl, rfl, rfl, rfl, rfl, rfl, rfl⟩

/-- A pin that is LOW keeps its last transition over a node reset (R146). -/
theorem Marker.nodeReset_of_low {now : Nat} {m : Marker} (h : m.pin = .low) :
    (m.nodeReset now).pin = .low ∧ (m.nodeReset now).resetHold = none ∧
      (m.nodeReset now).lastTransition = m.lastTransition := by
  have heq : m.cleared.wanted = m.cleared.pin := h.symm
  rw [Marker.nodeReset_eq, Marker.act_of_agrees heq]
  exact ⟨h, rfl, rfl⟩

/-- A pin that is HIGH without a hold goes LOW at a node reset (R146, R147). -/
theorem Marker.nodeReset_of_expired {now : Nat} {m : Marker} (h : m.pin = .high)
    (hhold : m.lastTransition + m.width ≤ now) :
    (m.nodeReset now).pin = .low ∧ (m.nodeReset now).resetHold = none ∧
      (m.nodeReset now).lastTransition = now := by
  have hne : m.cleared.wanted ≠ m.cleared.pin := fun e => nomatch e.trans h
  rw [Marker.nodeReset_eq, Marker.act_of_expired hne hhold]
  exact ⟨rfl, rfl, rfl⟩

/-- A pin that is HIGH under a hold stays HIGH until it expires (R146, R147). -/
theorem Marker.nodeReset_of_held {now : Nat} {m : Marker} (h : m.pin = .high)
    (hhold : now < m.lastTransition + m.width) :
    (m.nodeReset now).pin = .high ∧
      (m.nodeReset now).resetHold = some (m.lastTransition + m.width) ∧
      (m.nodeReset now).lastTransition = m.lastTransition := by
  have hne : m.cleared.wanted ≠ m.cleared.pin := fun e => nomatch e.trans h
  rw [Marker.nodeReset_eq, Marker.act_of_waiting hne hhold]
  exact ⟨h, rfl, rfl⟩

/-- A NODE-RESET that the part takes (R177). -/
theorem exec_nodeReset {c : Cell} {s : State} (h : Takes s c) :
    exec (.nodeReset c) s =
      .next (replied c .done [] (nodeReset s.link.badRun (consumed s))) := by
  change execNodeReset c s = _
  rw [execNodeReset, takeCommand_keeps h rfl]

/-- Settles O4: the reset by its definition, its markers by the width rule, and a bad cell behind it. -/
theorem nodeResetKeepsOnlyWhatR177Lists : Obligations.NodeResetKeepsOnlyWhatR177Lists := by
  unfold Obligations.NodeResetKeepsOnlyWhatR177Lists
  constructor
  · intro c s h
    refine ⟨_, exec_nodeReset h, rfl, rfl, rfl, rfl, rfl, rfl, rfl, rfl, rfl, rfl, rfl, rfl, rfl, rfl,
      rfl, rfl, fun m => ?_⟩
    have hafter : (replied c .done [] (nodeReset s.link.badRun (consumed s))).markers.get m =
        (s.markers.get m).nodeReset s.markerTime := Bank.get_map _ _ _
    dsimp only
    rw [hafter]
    obtain ⟨hsource, hinvert, hwidth, hheld, hrequest, hpulse, hshown⟩ :=
      Marker.nodeReset_frame s.markerTime (s.markers.get m)
    exact ⟨hsource, hinvert, hwidth, hheld, hrequest, hpulse, hshown, Marker.nodeReset_of_held,
      Marker.nodeReset_of_expired, Marker.nodeReset_of_low⟩
  · intro c s h hrun
    have hheld : s.held = false := h.1.1
    have hlocked : s.link.align = .locked := h.1.2
    refine ⟨_, _, exec_nodeReset h, rfl, ?_⟩
    simp [replied, nodeReset, consumed, badInLocked, hheld, hlocked, hrun, Config.runToChange,
      countUp, Config.maxCount16]

/-! ## Alignment -/

/-- Twenty groups are judged FILL where they are FILL-MARK groups, and only there (R155). -/
theorem judgeGroups_eq_fill_iff {gs : List Group} : judgeGroups gs = .fill ↔ gs = fillGroups := by
  unfold judgeGroups
  split
  · rename_i h
    exact ⟨fun _ => h, fun _ => rfl⟩
  · rename_i h
    refine ⟨fun hf => ?_, fun hg => absurd hg h⟩
    split at hf
    · dsimp only at hf
      split at hf <;> cases hf
    · cases hf

theorem countUp_eq_min {limit n : Nat} : countUp limit n = min limit (n + 1) := by
  unfold countUp
  split <;> omega

/-- A bad cell in LOCKED that is not the fourth in a row (R156, R157). -/
theorem badInLocked_of_lt {s : State} (h : s.link.badRun < 3) :
    badInLocked s =
      { s with
        link :=
          { s.link with
            badRun := s.link.badRun + 1, errors := countUp Config.maxCount16 s.link.errors
            slots := s.link.slots ++ [.free] } } := by
  have hmore : ¬ Config.runToChange ≤ s.link.badRun + 1 := by
    simp only [Config.runToChange]; omega
  unfold badInLocked
  dsimp only
  rw [if_neg hmore]
  rfl

/-- The fourth bad cell in a row (R156, R157). -/
theorem badInLocked_of_eq {s : State} (h : s.link.badRun = 3) :
    badInLocked s =
      raise .link [num 1 1]
        { s with
          link :=
            { s.link with
              badRun := 4, errors := countUp Config.maxCount16 s.link.errors, align := .hunt
              slots := s.link.slots ++ [.free] } } := by
  unfold badInLocked
  dsimp only
  rw [h, if_pos (by decide)]
  rfl

theorem confirmFill_of_lt {s : State} (h : s.link.goodRun < 3) :
    confirmFill s = { s with link := { s.link with goodRun := s.link.goodRun + 1 } } := by
  have hmore : ¬ Config.runToChange ≤ s.link.goodRun + 1 := by
    simp only [Config.runToChange]; omega
  unfold confirmFill
  dsimp only
  rw [if_neg hmore]

theorem confirmFill_of_eq {s : State} (h : s.link.goodRun = 3) :
    confirmFill s =
      raise .link [num 1 0]
        { s with link := { s.link with goodRun := 4, align := .locked, badRun := 0 } } := by
  unfold confirmFill
  dsimp only
  rw [h, if_pos (by decide)]

/-! ## The rows of the receiver and of the transmit link -/

theorem exec_huntCellStart {s : State} (hheld : s.held = false) (h : s.link.align = .hunt)
    (groups : List Group) :
    exec (.huntCellStart groups) s =
      .next (if groups = fillGroups then
        { s with link := { s.link with align := .confirming, goodRun := 0 } } else s) := by
  have hfill : (!s.held && s.link.align == .hunt && judgeGroups groups == .fill) = true ↔
      groups = fillGroups := by simp [hheld, h, judgeGroups_eq_fill_iff]
  change execHuntCellStart groups s = _
  rw [execHuntCellStart, if_congr hfill rfl rfl]

theorem exec_confirmingFillCell {s : State} (hheld : s.held = false)
    (h : s.link.align = .confirming) : exec .confirmingFillCell s = .next (confirmFill s) := by
  change execConfirmingFillCell s = _
  rw [execConfirmingFillCell, if_pos (by rw [hheld, h]; rfl)]

theorem exec_confirmingOtherCell {s : State} (hheld : s.held = false)
    (h : s.link.align = .confirming) : exec .confirmingOtherCell s = .next (toHunt s) := by
  change execConfirmingOtherCell s = _
  rw [execConfirmingOtherCell, if_pos (by rw [hheld, h]; rfl)]

/-- A silent cell time does not matter to the search (R156). -/
theorem exec_linkSilentCellTime_hunt {s : State} (hheld : s.held = false)
    (h : s.link.align = .hunt) : exec .linkSilentCellTime s = .next s := by
  change execLinkSilentCellTime s = _
  rw [execLinkSilentCellTime, if_neg (by rw [hheld]; decide), h]

/-- A silent cell time in CONFIRMING is no good FILL cell (R156). -/
theorem exec_linkSilentCellTime_confirming {s : State} (hheld : s.held = false)
    (h : s.link.align = .confirming) : exec .linkSilentCellTime s = .next (toHunt s) := by
  change execLinkSilentCellTime s = _
  rw [execLinkSilentCellTime, if_neg (by rw [hheld]; decide), h]

/-- A silent cell time in LOCKED is a bad cell (R156). -/
theorem exec_linkSilentCellTime_locked {s : State} (h : Receiving s) :
    exec .linkSilentCellTime s = .next (badInLocked s) := by
  change execLinkSilentCellTime s = _
  rw [execLinkSilentCellTime, if_neg (by rw [h.1]; decide), h.2]

theorem exec_badCell {s : State} (h : Receiving s) : exec .badCell s = .next (badInLocked s) := by
  exact exec_linkSilentCellTime_locked h

theorem exec_fillCell {s : State} (h : Receiving s) : exec .fillCell s = .next (consumed s) := by
  change execFillCell s = _
  rw [execFillCell, if_neg (by rw [h.1]; decide), h.2]
  rfl

theorem exec_relayCell {s : State} (h : Receiving s) (c : Cell) :
    exec (.relayCell c) s = .next (relayed c s) := by
  change execRelayCell c s = _
  rw [execRelayCell, receive_locked h]
  rfl

/-- A due slot of a relayed cell carries that cell (R159). -/
theorem exec_transmitSlotDue_relay {s : State} {c : Cell} {others : List TxSlot}
    (hheld : s.held = false) (h : s.link.slots = .relay c :: others) :
    exec .transmitSlotDue s =
      .next (transmit (.data c) { s with link := { s.link with slots := others } }) := by
  change execTransmitSlotDue s = _
  rw [execTransmitSlotDue, if_neg (by rw [hheld]; decide), h]

/-- A due free slot is the arbiter's (R159). -/
theorem exec_transmitSlotDue_freed {s : State} {others : List TxSlot} (hheld : s.held = false)
    (h : s.link.slots = .free :: others) :
    exec .transmitSlotDue s = .next (fillFreeSlot { s with link := { s.link with slots := others } }) := by
  change execTransmitSlotDue s = _
  rw [execTransmitSlotDue, if_neg (by rw [hheld]; decide), h]

/-- With no slot waiting nothing is sent in LOCKED, and the link's own slots are free outside it (R159). -/
theorem exec_transmitSlotDue_none {s : State} (hheld : s.held = false) (h : s.link.slots = []) :
    exec .transmitSlotDue s = .next (if s.link.align = .locked then s else fillFreeSlot s) := by
  change execTransmitSlotDue s = _
  rw [execTransmitSlotDue, if_neg (by rw [hheld]; decide), h]

theorem exec_transmitSlotDue_of_held {s : State} (hheld : s.held = true) :
    exec .transmitSlotDue s = .next (transmit .fill s) := by
  change execTransmitSlotDue s = _
  rw [execTransmitSlotDue, if_pos hheld]

/-- Settles O5: each row by its equation, with the run at 3 and below it. -/
theorem alignmentIsFoundByR156 : Obligations.AlignmentIsFoundByR156 := by
  unfold Obligations.AlignmentIsFoundByR156
  intro s hheld
  refine ⟨fun hhunt => ⟨exec_huntCellStart hheld hhunt, ?_⟩,
    fun hconf => ⟨fun hrun => ?_, fun hrun => ?_, exec_confirmingOtherCell hheld hconf, ?_⟩⟩
  · exact exec_linkSilentCellTime_hunt hheld hhunt
  · rw [exec_confirmingFillCell hheld hconf, confirmFill_of_lt hrun]
  · rw [exec_confirmingFillCell hheld hconf, confirmFill_of_eq hrun]
  · exact exec_linkSilentCellTime_confirming hheld hconf

/-- Settles O6: a bad cell below the fourth in a row, and the fourth. -/
theorem badCellsInLocked : Obligations.BadCellsInLocked := by
  unfold Obligations.BadCellsInLocked
  intro s h
  refine ⟨rfl, fun hrun => ?_, fun hrun => ?_⟩
  · rw [exec_badCell h, badInLocked_of_lt hrun, countUp_eq_min]
    rfl
  · rw [exec_badCell h, badInLocked_of_eq hrun, countUp_eq_min]
    rfl

/-- Settles O7: each row by its equation. -/
theorem fillAndRelayedCells : Obligations.FillAndRelayedCells := by
  unfold Obligations.FillAndRelayedCells
  refine ⟨fun s h => ⟨exec_fillCell h, exec_relayCell h, fun hslots => ?_⟩,
    fun c others s hheld hslots => ?_, fun s hheld => exec_transmitSlotDue_of_held hheld⟩
  · rw [exec_transmitSlotDue_none h.1 hslots, if_pos h.2]
  · exact exec_transmitSlotDue_relay hheld hslots

end Sys2Proof.Machine
end

section
/-!
SUPPORT. The Insertion Arbiter (R160) and the layout of the cells that the part forms (R161 to R163).
-/

namespace Sys2Proof.Machine

/-! ## The arbiter's order -/

/-- The state in which the slots behind the free one that is due wait (R159). -/
def withSlots (others : List TxSlot) (s : State) : State :=
  { s with link := { s.link with slots := others } }

/-- A free slot that is due is filled by the arbiter (R159, R160). -/
theorem exec_transmitSlotDue_free {s : State} {others : List TxSlot} (h : FreeSlotDue s others) :
    exec .transmitSlotDue s = .next (fillFreeSlot (withSlots others s)) := by
  obtain ⟨hheld, hslots | ⟨hslots, hothers, hlocked⟩⟩ := h
  · exact exec_transmitSlotDue_freed hheld hslots
  · have hsame : withSlots others s = s := by rw [withSlots, hothers, ← hslots]
    rw [exec_transmitSlotDue_none hheld hslots, hsame, if_neg hlocked]

theorem fillFreeSlot_notice {s : State} {k : AttnKind} {ks : List AttnKind}
    (hmute : s.command.mute = false) (hk : s.command.notices = k :: ks) :
    fillFreeSlot s = sendNotice k s := by
  rw [fillFreeSlot, hmute, hk]

theorem fillFreeSlot_reply {s : State} {r : Reply} {rs : List Reply}
    (hquiet : s.command.mute = true ∨ s.command.notices = []) (hr : s.command.replies = r :: rs) :
    fillFreeSlot s = sendReply r rs s := by
  rw [fillFreeSlot, hr]
  rcases hquiet with h | h
  · rw [h]
  · rw [h]
    cases s.command.mute <;> rfl

theorem fillFreeSlot_record {s : State} {r : QueueRecord} {rs : List QueueRecord}
    (hquiet : s.command.mute = true ∨ s.command.notices = []) (hreplies : s.command.replies = [])
    (hr : s.results.records = r :: rs) : fillFreeSlot s = sendRecord r rs s := by
  rw [fillFreeSlot, hreplies, hr]
  rcases hquiet with h | h
  · rw [h]
  · rw [h]
    cases s.command.mute <;> rfl

theorem fillFreeSlot_fill {s : State} (hquiet : s.command.mute = true ∨ s.command.notices = [])
    (hreplies : s.command.replies = []) (hr : s.results.records = []) :
    fillFreeSlot s = transmit .fill s := by
  rw [fillFreeSlot, hreplies, hr]
  rcases hquiet with h | h
  · rw [h]
  · rw [h]
    cases s.command.mute <;> rfl

theorem ite_le_eq_ite_lt {α : Type} (m n : Nat) (x y : α) :
    (if m ≤ n then x else y) = if n < m then y else x := by
  rw [← ite_not]
  simp only [Nat.not_le]

/-! ## Packing -/

theorem packedWidth_append (fs gs : List Field) :
    packedWidth (fs ++ gs) = packedWidth fs + packedWidth gs := by
  induction fs with
  | nil => simp [packedWidth]
  | cons f fs ih => simp only [List.cons_append, packedWidth, ih]; omega

/-- A field laid behind others is less significant than they are. -/
theorem packedValue_append (fs gs : List Field) :
    packedValue (fs ++ gs) = packedValue fs * 2 ^ packedWidth gs + packedValue gs := by
  induction fs with
  | nil => simp [packedValue]
  | cons f fs ih =>
    simp only [List.cons_append, packedValue, ih, packedWidth_append, pow_add]
    ring

theorem packedValue_lt (fs : List Field) : packedValue fs < 2 ^ packedWidth fs := by
  induction fs with
  | nil => exact Nat.one_pos
  | cons f fs ih =>
    have hmod : f.value % 2 ^ f.width + 1 ≤ 2 ^ f.width := Nat.mod_lt _ (Nat.two_pow_pos _)
    rw [packedValue, packedWidth, pow_add]
    calc f.value % 2 ^ f.width * 2 ^ packedWidth fs + packedValue fs
        < f.value % 2 ^ f.width * 2 ^ packedWidth fs + 2 ^ packedWidth fs := Nat.add_lt_add_left ih _
      _ = (f.value % 2 ^ f.width + 1) * 2 ^ packedWidth fs := by ring
      _ ≤ 2 ^ f.width * 2 ^ packedWidth fs := Nat.mul_le_mul_right _ hmod

/-- Fields that fit their room are laid from its most significant bit on (R161). -/
theorem packInto_of_fits {room : Nat} {fs : List Field} (h : packedWidth fs ≤ room) :
    packInto room fs = packedValue fs * 2 ^ (room - packedWidth fs) := by
  refine Nat.mod_eq_of_lt ?_
  calc packedValue fs * 2 ^ (room - packedWidth fs)
      < 2 ^ packedWidth fs * 2 ^ (room - packedWidth fs) :=
        Nat.mul_lt_mul_of_pos_right (packedValue_lt fs) (Nat.two_pow_pos _)
    _ = 2 ^ room := by rw [← pow_add, Nat.add_sub_cancel' h]

theorem packInto_lt (room : Nat) (fs : List Field) : packInto room fs < 2 ^ room :=
  Nat.mod_lt _ (Nat.two_pow_pos _)

/-! ## Replies and records -/

theorem ReplyCode.code_lt (c : ReplyCode) : c.code < 12 := by cases c <;> decide

theorem SlotKind.code_lt (k : SlotKind) : k.code < 3 := by cases k <;> decide

theorem Reply.cells_of_le {r : Reply} (h : packedWidth r.fields ≤ 48) : r.cells = 1 := if_pos h

theorem Reply.cells_of_lt {r : Reply} (h : 48 < packedWidth r.fields) : r.cells = 2 :=
  if_neg (Nat.not_le.mpr h)

/-- The head of a reply cell: the tag, the more and continuation marks, and the code (R162). -/
theorem replyHead_eq (tag : Byte) (more cont : Bool) (c : ReplyCode) :
    packedValue [num 8 tag.toNat, bit more, bit cont, num 2 0, num 4 c.code] =
      tag.toNat * 2 ^ 8 + more.toNat * 2 ^ 7 + cont.toNat * 2 ^ 6 + c.code := by
  have htag := tag.isLt
  have hcode := c.code_lt
  cases more <;> cases cont <;>
    simp only [packedValue, packedWidth, num, bit, Bool.toNat_true, Bool.toNat_false] <;> omega

/-- The one cell of a short reply (R161, R162). -/
theorem replyCell_of_le (n : Node) {r : Reply} (h : packedWidth r.fields ≤ 48) :
    replyCell n r 0 =
      ⟨BitVec.ofNat 8 (4 * 16 + n.address),
        BitVec.ofNat 64 (r.tag.toNat * 2 ^ 56 + r.code.code * 2 ^ 48 + packInto 48 r.fields)⟩ := by
  unfold replyCell
  simp only [Reply.cells_of_le h, replyHead_eq, ownCell]
  refine congrArg₂ Cell.mk rfl (congrArg _ ?_)
  simp only [replyRoom, reduceCtorEq, Bool.false_and, Bool.toNat_false, Nat.reduceBEq, if_false]
  omega

/-- The two cells of a long reply (R161, R162). -/
theorem replyCell_of_lt (n : Node) {r : Reply} (h : 48 < packedWidth r.fields) :
    replyCell n r 0 =
        ⟨BitVec.ofNat 8 (4 * 16 + n.address),
          BitVec.ofNat 64 (r.tag.toNat * 2 ^ 56 + r.code.code * 2 ^ 48 + 2 ^ 55 +
            packInto 96 r.fields / 2 ^ 48)⟩ ∧
      replyCell n r 1 =
        ⟨BitVec.ofNat 8 (4 * 16 + n.address),
          BitVec.ofNat 64 (r.tag.toNat * 2 ^ 56 + r.code.code * 2 ^ 48 + 2 ^ 54 +
            packInto 96 r.fields % 2 ^ 48)⟩ := by
  have hlt := packInto_lt 96 r.fields
  constructor
  · unfold replyCell
    simp only [Reply.cells_of_lt h, replyHead_eq, ownCell]
    refine congrArg₂ Cell.mk rfl (congrArg _ ?_)
    simp only [replyRoom, BEq.rfl, Bool.true_and, Bool.toNat_true, Nat.reduceBEq, Bool.toNat_false,
      if_true, Nat.reduceMul]
    omega
  · unfold replyCell
    simp only [Reply.cells_of_lt h, replyHead_eq, ownCell]
    refine congrArg₂ Cell.mk rfl (congrArg _ ?_)
    simp only [replyRoom, BEq.rfl, Bool.true_and, Bool.toNat_true, Nat.reduceBEq, Bool.toNat_false,
      if_true, Nat.reduceMul]
    omega

/-- The segment descriptor's bits: slot, segment, last (Table 11-3). -/
theorem segmentDescriptor_eq {slot seg : Nat} (last : Bool) (hslot : slot < 8) (hseg : seg < 8) :
    segmentDescriptor slot seg last = slot * 2 ^ 5 + seg * 2 ^ 2 + last.toNat * 2 := by
  cases last <;>
    simp only [segmentDescriptor, packedValue, packedWidth, num, bit, Bool.toNat_true,
      Bool.toNat_false] <;> omega

theorem RecordBody.cells_le (b : RecordBody) : b.cells ≤ 7 := by
  cases b <;> simp [RecordBody.cells]

theorem recordCell_result (n : Node) {r : Record} {j : Nat} (hj : j < r.body.cells) :
    recordCell n j (.result r) =
      ⟨BitVec.ofNat 8 (5 * 16 + n.address),
        BitVec.ofNat 64 (r.slot.val * 2 ^ 61 + j * 2 ^ 58 +
          (if j + 1 = r.body.cells then 2 ^ 57 else 0) + r.segment j)⟩ := by
  have hcells := r.body.cells_le
  rw [recordCell, ownCell, segmentDescriptor_eq _ r.slot.isLt (by omega)]
  refine congrArg₂ Cell.mk rfl (congrArg _ ?_)
  split
  · rename_i h
    rw [h]
    simp only [BEq.rfl, Bool.toNat_true]
    omega
  · rename_i h
    rw [beq_false_of_ne h]
    simp only [Bool.toNat_false]
    omega

theorem recordCell_stamp (n : Node) (ch : Fin 16) (se : Sense) (m : EdgeMarks) (stamp : BitVec 56) :
    recordCell n 0 (.stamp ch se m stamp) =
      ⟨BitVec.ofNat 8 (6 * 16 + n.address),
        BitVec.ofNat 64 (ch.val * 2 ^ 60 + (if se = .rise then 0 else 2 ^ 59) +
          m.nominal.toNat * 2 ^ 58 + m.gap.toNat * 2 ^ 57 + m.unepoched.toNat * 2 ^ 56 +
          stamp.toNat)⟩ := by
  have hch := ch.isLt
  have hbit : ∀ b : Bool, b.toNat < 2 := Bool.toNat_lt
  have h1 := hbit m.nominal
  have h2 := hbit m.gap
  have h3 := hbit m.unepoched
  refine congrArg₂ Cell.mk rfl (congrArg _ ?_)
  cases se <;>
    simp only [packedValue, packedWidth, num, bit, senseCode, reduceCtorEq, if_true, if_false] <;>
    omega

theorem recordCell_gap (n : Node) {count : Nat} (limit : Bool) (h : count ≤ 65535) :
    recordCell n 0 (.gap count limit) =
      ⟨BitVec.ofNat 8 (5 * 16 + n.address),
        BitVec.ofNat 64 (7 * 2 ^ 58 + 2 ^ 57 + count * 2 ^ 40 + limit.toNat * 2 ^ 39)⟩ := by
  have hlimit : limit.toNat < 2 := Bool.toNat_lt _
  rw [recordCell, ownCell, segmentDescriptor_eq true (by decide) (by decide),
    packInto_of_fits (by simp [packedWidth, num, bit])]
  refine congrArg₂ Cell.mk rfl (congrArg _ ?_)
  simp only [packedValue, packedWidth, num, bit, Bool.toNat_true]
  omega

theorem size_result (r : Record) :
    (QueueRecord.result r).size = if r.body.kind = .total then 6 else 7 := by
  show r.body.cells = _
  cases r.body <;> rfl

/-- Settles O8: the arbiter's order case by case, and each cell from its packed fields. -/
theorem arbiterOrderOfR160 : Obligations.ArbiterOrderOfR160 := by
  unfold Obligations.ArbiterOrderOfR160
  refine ⟨fun s others hfree => ⟨fun k ks hmute hk => ?_, fun hquiet => ⟨fun r rs hr => ?_,
    fun hreplies => ⟨fun r rs hr => ?_, fun hr => ?_⟩⟩⟩, fun fs w v => ⟨rfl, rfl, ?_, ?_⟩,
    fun room fs h => packInto_of_fits h, fun s k => rfl, fun n r => ⟨fun h => ?_, fun h => ?_⟩,
    by decide, by decide, fun n r j hj => recordCell_result n hj, recordCell_stamp,
    fun n count limit h => recordCell_gap n limit h, fun r ch se m stamp count limit =>
      ⟨size_result r, rfl, rfl⟩⟩
  · rw [exec_transmitSlotDue_free hfree, fillFreeSlot_notice (s := withSlots others s) hmute hk]
    have herase : (withSlots others s).command.notices.erase k = ks := by
      show s.command.notices.erase k = ks
      rw [hk, List.erase_cons_head]
    rw [sendNotice, herase]
    rfl
  · rw [exec_transmitSlotDue_free hfree, fillFreeSlot_reply (s := withSlots others s) hquiet hr,
      sendReply, ite_le_eq_ite_lt]
    rfl
  · rw [exec_transmitSlotDue_free hfree,
      fillFreeSlot_record (s := withSlots others s) hquiet hreplies hr, sendRecord,
      ite_le_eq_ite_lt]
    rfl
  · rw [exec_transmitSlotDue_free hfree, fillFreeSlot_fill (s := withSlots others s) hquiet hreplies hr]
    rfl
  · rw [packedWidth_append]
    rfl
  · rw [packedValue_append]
    simp [packedWidth, packedValue]
  · exact ⟨Reply.cells_of_le h, replyCell_of_le n h⟩
  · exact ⟨Reply.cells_of_lt h, replyCell_of_lt n h⟩

end Sys2Proof.Machine
end

section
/-!
SUPPORT. What the blocks make of a state does not depend on the transmit slots that wait (R158): the ground of the
broadcast rule (R165).
-/

namespace Sys2Proof.Machine

/-! ## Numbers in range -/

theorem inRange_of_lt {n v : Nat} (h : v < n) : inRange n v = some ⟨v, h⟩ := dif_pos h

@[simp] theorem inRange_val {n : Nat} (i : Fin n) : inRange n i.val = some i := dif_pos i.isLt

theorem inRange_of_le {n v : Nat} (h : n ≤ v) : inRange n v = none := dif_neg (Nat.not_lt.mpr h)

/-! ## The other records of the state -/

section Fields
variable (l : List TxSlot) (s : State)

@[simp] theorem withSlots_held : (withSlots l s).held = s.held := rfl
@[simp] theorem withSlots_node : (withSlots l s).node = s.node := rfl
@[simp] theorem withSlots_timebase : (withSlots l s).timebase = s.timebase := rfl
@[simp] theorem withSlots_map : (withSlots l s).map = s.map := rfl
@[simp] theorem withSlots_channels : (withSlots l s).channels = s.channels := rfl
@[simp] theorem withSlots_tables : (withSlots l s).tables = s.tables := rfl
@[simp] theorem withSlots_cal : (withSlots l s).cal = s.cal := rfl
@[simp] theorem withSlots_queue : (withSlots l s).queue = s.queue := rfl
@[simp] theorem withSlots_slots : (withSlots l s).slots = s.slots := rfl
@[simp] theorem withSlots_plan : (withSlots l s).plan = s.plan := rfl
@[simp] theorem withSlots_results : (withSlots l s).results = s.results := rfl
@[simp] theorem withSlots_markerTime : (withSlots l s).markerTime = s.markerTime := rfl
@[simp] theorem withSlots_markers : (withSlots l s).markers = s.markers := rfl
@[simp] theorem withSlots_command : (withSlots l s).command = s.command := rfl
@[simp] theorem withSlots_choices : (withSlots l s).choices = s.choices := rfl

theorem setSlot_withSlots (i : Fin 8) (x : Slot) :
    (withSlots l s).setSlot i x = withSlots l (s.setSlot i x) := rfl

theorem raise_withSlots (k : AttnKind) (d : List Field) :
    raise k d (withSlots l s) = withSlots l (raise k d s) := rfl

theorem emptyLoad_withSlots : emptyLoad (withSlots l s) = withSlots l (emptyLoad s) := rfl

theorem withSlots_ite {p : Prop} [Decidable p] (s t : State) :
    (if p then withSlots l s else withSlots l t) = withSlots l (if p then s else t) :=
  (apply_ite (withSlots l) p s t).symm

theorem abandonLoad_withSlots (code : Nat) :
    abandonLoad code (withSlots l s) = withSlots l (abandonLoad code s) := by
  rw [abandonLoad, abandonLoad, ← withSlots_ite]
  rfl

/-! ## Results and slot events -/

theorem appendRecord_withSlots (r : QueueRecord) :
    appendRecord r (withSlots l s) = withSlots l (appendRecord r s) := by
  rw [appendRecord, appendRecord, ← withSlots_ite]
  rfl

theorem dropRecord_withSlots : dropRecord (withSlots l s) = withSlots l (dropRecord s) := rfl

theorem appendGap_withSlots : appendGap (withSlots l s) = withSlots l (appendGap s) :=
  appendRecord_withSlots l { s with results := { s.results with gaps := 0, gapLimit := false } } _

theorem offer_withSlots (r : QueueRecord) : offer r (withSlots l s) = withSlots l (offer r s) := by
  simp only [offer, withSlots_results, appendRecord_withSlots, dropRecord_withSlots,
    appendGap_withSlots, withSlots_ite]

theorem publish_withSlots (report : Bool) (r : Record) :
    publish report r (withSlots l s) = withSlots l (publish report r s) := by
  have hoffer : (if report then offer (.result r) (withSlots l s) else withSlots l s) =
      withSlots l (if report then offer (.result r) s else s) := by
    rw [offer_withSlots, withSlots_ite]
  rw [publish, hoffer]
  rfl

/-- A sequence of events that do not depend on the waiting slots does not. -/
theorem foldl_withSlots {α : Type} {f : State → α → State}
    (hf : ∀ s a, f (withSlots l s) a = withSlots l (f s a)) (as : List α) :
    as.foldl f (withSlots l s) = withSlots l (as.foldl f s) := by
  induction as generalizing s with
  | nil => rfl
  | cons a as ih => rw [List.foldl_cons, List.foldl_cons, hf, ih]

theorem applySlot_withSlots (i : Fin 8) (out : SlotOut) :
    applySlot i out (withSlots l s) = withSlots l (applySlot i out s) := by
  have hfold := foldl_withSlots l (f := fun s r => publish out.1.config.report r s)
    (s.setSlot i out.1) (fun s r => publish_withSlots l s _ r) out.2
  rw [applySlot, setSlot_withSlots, hfold]
  rfl

theorem settleSlotLoop_withSlots (fuel : Nat) (i : Fin 8) :
    settleSlotLoop fuel i (withSlots l s) = withSlots l (settleSlotLoop fuel i s) := by
  induction fuel generalizing s with
  | zero => rfl
  | succ fuel ih =>
    rw [settleSlotLoop, settleSlotLoop]
    simp only [withSlots_choices, withSlots_slots, withSlots_queue]
    split
    · rfl
    · rename_i b others n h
      exact (congrArg _ (applySlot_withSlots l { s with choices := n } i _)).trans (ih _)

theorem settleSlot_withSlots (i : Fin 8) :
    settleSlot (withSlots l s) i = withSlots l (settleSlot s i) := settleSlotLoop_withSlots l s _ i

theorem slotEvent_withSlots (i : Fin 8) (out : SlotOut) :
    slotEvent i out (withSlots l s) = withSlots l (slotEvent i out s) := by
  rw [slotEvent, applySlot_withSlots, settleSlot_withSlots]
  rfl

/-! ## The release sequence -/

theorem moveMark_withSlots (t : Stamp) :
    moveMark t (withSlots l s) = withSlots l (moveMark t s) := by
  have hfold := foldl_withSlots l { s with queue := { s.queue with mark := t } }
    (fun s i => settleSlot_withSlots l s i) allSlots
  rw [moveMark, moveMark, ← withSlots_ite, ← hfold]
  rfl

theorem deliverTo_withSlots (e : Edge) (i : Fin 8) :
    deliverTo e (withSlots l s) i = withSlots l (deliverTo e s i) := by
  rw [deliverTo, deliverTo, ← withSlots_ite, ← slotEvent_withSlots]
  rfl

theorem toggleDividers_withSlots (c : Fin 16) :
    toggleDividers c (withSlots l s) = withSlots l (toggleDividers c s) := rfl

theorem deliverEdge_withSlots (e : Edge) :
    deliverEdge e (withSlots l s) = withSlots l (deliverEdge e s) := by
  have hstream : (if (s.channels.get e.channel).set.stream then offer e.stampRecord (withSlots l s)
      else withSlots l s) =
      withSlots l (if (s.channels.get e.channel).set.stream then offer e.stampRecord s else s) := by
    rw [offer_withSlots, withSlots_ite]
  rw [deliverEdge, withSlots_channels, hstream]
  rw [foldl_withSlots l _ (fun s i => deliverTo_withSlots l s e i), toggleDividers_withSlots,
    deliverEdge]

theorem release_withSlots (e : Edge) : release (withSlots l s) e = withSlots l (release s e) := by
  rw [release, moveMark_withSlots, deliverEdge_withSlots]
  rfl

theorem frontierAdvance_withSlots (f : Stamp) :
    frontierAdvance f (withSlots l s) = withSlots l (frontierAdvance f s) := by
  have hfold := foldl_withSlots l
    { s with
      queue := { s.queue with entries := s.queue.entries.dropWhile fun e => notLater e.stamp f } }
    (fun s e => release_withSlots l s e) (s.queue.entries.takeWhile fun e => notLater e.stamp f)
  rw [frontierAdvance, frontierAdvance, ← moveMark_withSlots, ← hfold]
  rfl

theorem changeHorizon_withSlots (n : Nat) :
    changeHorizon n (withSlots l s) = withSlots l (changeHorizon n s) := by
  rw [changeHorizon, changeHorizon, ← withSlots_ite, ← frontierAdvance_withSlots]
  rfl

end Fields

end Sys2Proof.Machine
end

section
/-!
SUPPORT. Commands: every row's own rule, which neither reads the waiting transmit slots nor, but for NAME, asks whether
the command was broadcast (R158, R165).
-/

namespace Sys2Proof.Machine

/-- A rule's answer in a part where other transmit slots wait. -/
def Answer.withSlots (l : List TxSlot) (a : Answer) : Answer :=
  { a with state := Machine.withSlots l a.state }

/-- A rule that neither reads the waiting transmit slots nor asks for a broadcast. -/
def IgnoresSlots (rule : Bool → State → Answer) : Prop :=
  ∀ (l : List TxSlot) (b : Bool) (s : State),
    rule b (withSlots l s) = (rule false s).withSlots l

theorem Answer.withSlots_ite (l : List TxSlot) {p : Prop} [Decidable p] (a b : Answer) :
    (if p then a else b).withSlots l = if p then a.withSlots l else b.withSlots l :=
  apply_ite (Answer.withSlots l) p a b

section Rules
variable (l : List TxSlot) (s : State)

theorem setMode_withSlots (m : Nat) : setMode m (withSlots l s) = (setMode m s).withSlots l := by
  unfold setMode
  split
  · rfl
  · simp only [Answer.withSlots_ite]
    rfl

theorem nodeReset_withSlots (r : Nat) :
    nodeReset r (withSlots l s) = withSlots l (nodeReset r s) := rfl

theorem setHorizon_withSlots (n : Nat) :
    setHorizon n (withSlots l s) = (setHorizon n s).withSlots l := by
  simp only [setHorizon, changeHorizon_withSlots, Answer.withSlots_ite]
  rfl

theorem setTrim_withSlots (n : Nat) : setTrim n (withSlots l s) = (setTrim n s).withSlots l := by
  rw [setTrim, setTrim, Answer.withSlots_ite]
  rfl

theorem chanWrite_withSlots (ch : Nat) (a : ChanArg) :
    chanWrite ch a (withSlots l s) = (chanWrite ch a s).withSlots l := by
  simp only [chanWrite, withSlots_channels]
  split
  · rfl
  · split
    · rfl
    · simp only [Answer.withSlots_ite]
      rfl

theorem chanRead_withSlots (ch : Nat) (a : ChanItem) :
    chanRead ch a (withSlots l s) = (chanRead ch a s).withSlots l := by
  simp only [chanRead, withSlots_channels]
  split
  · rfl
  · split <;> rfl

theorem loadOpen_withSlots (t : LoadArg) (f n : Nat) :
    loadOpen t f n (withSlots l s) = (loadOpen t f n s).withSlots l := by
  unfold loadOpen
  split
  · rfl
  · simp only [Answer.withSlots_ite]
    rfl

theorem loadData_withSlots (ws : List Word16) :
    loadData ws (withSlots l s) = (loadData ws s).withSlots l := by
  rw [loadData, loadData, Answer.withSlots_ite]
  rfl

theorem commitMap_withSlots (b : LoadBuffer) :
    commitMap b (withSlots l s) = (commitMap b s).withSlots l := by
  simp only [commitMap, Answer.withSlots_ite]
  rfl

theorem commitTable_withSlots (t : Fin 8) (b : LoadBuffer) :
    commitTable t b (withSlots l s) = (commitTable t b s).withSlots l := by
  simp only [commitTable, withSlots_tables]
  split <;> rfl

theorem commitPlan_withSlots (b : LoadBuffer) :
    commitPlan b (withSlots l s) = (commitPlan b s).withSlots l := by
  unfold commitPlan
  split
  · rfl
  · simp only [Answer.withSlots_ite]
    rfl

theorem loadCommit_withSlots : loadCommit (withSlots l s) = (loadCommit s).withSlots l := by
  simp only [loadCommit, Answer.withSlots_ite, withSlots_command]
  refine if_congr Iff.rfl ?_ rfl
  split
  · exact commitMap_withSlots l s _
  · exact commitTable_withSlots l s _ _
  · exact commitPlan_withSlots l s _

theorem tableRead_withSlots (t : ReadArg) (n : Nat) :
    tableRead t n (withSlots l s) = (tableRead t n s).withSlots l := by
  unfold tableRead
  split
  · split
    · simp only [Answer.withSlots_ite]
      rfl
    · rfl
  · simp only [withSlots_cal]
    split <;> rfl
  · rfl

theorem calRun_withSlots (t c k o e : Nat) :
    calRun t c k o e (withSlots l s) = (calRun t c k o e s).withSlots l := by
  unfold calRun
  split
  · simp only [Answer.withSlots_ite]
    rfl
  · rfl

theorem calCancel_withSlots : calCancel (withSlots l s) = (calCancel s).withSlots l := by
  rw [calCancel, calCancel, Answer.withSlots_ite]
  rfl

theorem slotSet_withSlots (i : Nat) (a : SlotArg) :
    slotSet i a (withSlots l s) = (slotSet i a s).withSlots l := by
  simp only [slotSet, withSlots_slots]
  split
  · rfl
  · split
    · rfl
    · simp only [Answer.withSlots_ite]
      rfl

theorem armSlot_withSlots (i : Nat) : armSlot i (withSlots l s) = (armSlot i s).withSlots l := by
  simp only [armSlot, slotEvent_withSlots, withSlots_slots, withSlots_queue]
  split
  · rfl
  · simp only [Answer.withSlots_ite]
    rfl

theorem armSlotAt_withSlots (i t : Nat) :
    armSlotAt i t (withSlots l s) = (armSlotAt i t s).withSlots l := by
  simp only [armSlotAt, slotEvent_withSlots, withSlots_slots, withSlots_queue]
  split
  · rfl
  · simp only [Answer.withSlots_ite]
    rfl

theorem stopSlot_withSlots (i : Nat) : stopSlot i (withSlots l s) = (stopSlot i s).withSlots l := by
  simp only [stopSlot, slotEvent_withSlots, withSlots_slots, withSlots_queue]
  split
  · rfl
  · split <;> rfl

theorem moveTotal_withSlots (before after : SlotState) (i : Nat) :
    moveTotal before after i (withSlots l s) = (moveTotal before after i s).withSlots l := by
  simp only [moveTotal, applySlot_withSlots, withSlots_slots]
  split
  · rfl
  · simp only [Answer.withSlots_ite]
    rfl

/-- A marker command's effect does not read the waiting slots where its change of the marker does not. -/
theorem markerCommand_withSlots {α : Type} (n : Nat) (v : Option α) (f : State → α → Marker → Marker)
    (hf : f (withSlots l s) = f s) :
    markerCommand n v f (withSlots l s) = (markerCommand n v f s).withSlots l := by
  simp only [markerCommand, hf, withSlots_markers]
  split
  · rfl
  · split <;> rfl

end Rules

/-- A command's row hands its cell on with its own rule, which is given the bad-cell run and, but for NAME, does not
read the waiting slots (R158, R165). -/
structure CommandRule (i : Instr) (code : Nat) (rule : Nat → Bool → State → Answer) : Prop where
  exec_withCell : ∀ (d : Cell) (s : State),
    exec (i.withCell d) s = .next (takeCommand code d (rule s.link.badRun) s)
  ignores : code ≠ 0 → ∀ run, IgnoresSlots (rule run)

/-- The row as it stands is the row in its own cell. -/
theorem withCell_self {i : Instr} {code : Nat} {c : Cell} (h : i.command? = some (code, c)) :
    i.withCell c = i := by
  cases i <;> cases h <;> rfl

/-- Every command's row has its own rule (Table 12-1). -/
theorem commandRule_of {i : Instr} {code : Nat} {c : Cell} (h : i.command? = some (code, c)) :
    ∃ rule, CommandRule i code rule := by
  cases i <;> cases h
  case name a => exact ⟨fun _ b s => nameNode a b s, fun _ _ => rfl, fun h0 => absurd rfl h0⟩
  case mode a => exact ⟨fun _ _ s => setMode a s, fun _ _ => rfl, fun _ _ l _ s => setMode_withSlots l s a⟩
  case ident a =>
    refine ⟨fun _ => _, fun _ _ => rfl, fun _ _ l _ s => ?_⟩
    cases identFields a <;> rfl
  case nodeReset =>
    exact ⟨fun r _ s => ⟨nodeReset r s, .done, []⟩, fun _ _ => rfl, fun _ _ _ _ _ => rfl⟩
  case status a =>
    refine ⟨fun _ => _, fun _ _ => rfl, fun _ _ l _ s => ?_⟩
    cases a <;> rfl
  case clear a b => exact ⟨fun _ _ s => clearAttentions a b s, fun _ _ => rfl, fun _ _ _ _ _ => rfl⟩
  case attnSet a b m =>
    exact ⟨fun _ _ s => setAttentions a b m s, fun _ _ => rfl, fun _ _ _ _ _ => rfl⟩
  case timeSetHorizon n =>
    exact ⟨fun _ _ s => setHorizon n s, fun _ _ => rfl, fun _ _ l _ s => setHorizon_withSlots l s n⟩
  case timeSetTrim n =>
    exact ⟨fun _ _ s => setTrim n s, fun _ _ => rfl, fun _ _ l _ s => setTrim_withSlots l s n⟩
  case timeSetReport => exact ⟨fun _ => _, fun _ _ => rfl, fun _ _ _ _ _ => rfl⟩
  case timeSetCount => exact ⟨fun _ => _, fun _ _ => rfl, fun _ _ _ _ _ => rfl⟩
  case chanWrite n a =>
    exact ⟨fun _ _ s => chanWrite n a s, fun _ _ => rfl, fun _ _ l _ s => chanWrite_withSlots l s n a⟩
  case chanRead n a =>
    exact ⟨fun _ _ s => chanRead n a s, fun _ _ => rfl, fun _ _ l _ s => chanRead_withSlots l s n a⟩
  case loadOpen t f n =>
    exact ⟨fun _ _ s => loadOpen t f n s, fun _ _ => rfl, fun _ _ l _ s => loadOpen_withSlots l s t f n⟩
  case loadData ws =>
    exact ⟨fun _ _ s => loadData ws s, fun _ _ => rfl, fun _ _ l _ s => loadData_withSlots l s ws⟩
  case loadCommit =>
    exact ⟨fun _ _ s => loadCommit s, fun _ _ => rfl, fun _ _ l _ s => loadCommit_withSlots l s⟩
  case loadCancel => exact ⟨fun _ => _, fun _ _ => rfl, fun _ _ _ _ _ => rfl⟩
  case tableRead t n =>
    exact ⟨fun _ _ s => tableRead t n s, fun _ _ => rfl, fun _ _ l _ s => tableRead_withSlots l s t n⟩
  case calRun t n k o e =>
    exact ⟨fun _ _ s => calRun t n k o e s, fun _ _ => rfl,
      fun _ _ l _ s => calRun_withSlots l s t n k o e⟩
  case calCancel =>
    exact ⟨fun _ _ s => calCancel s, fun _ _ => rfl, fun _ _ l _ s => calCancel_withSlots l s⟩
  case slotSet n a =>
    exact ⟨fun _ _ s => slotSet n a s, fun _ _ => rfl, fun _ _ l _ s => slotSet_withSlots l s n a⟩
  case slotGet n a =>
    refine ⟨fun _ => _, fun _ _ => rfl, fun _ _ l _ s => ?_⟩
    dsimp only [withSlots_slots]
    rcases inRange 8 n with _ | i
    · rfl
    · dsimp only
      cases slotItemFields (s.slots.get i) i a <;> rfl
  case arm n => exact ⟨fun _ _ s => armSlot n s, fun _ _ => rfl, fun _ _ l _ s => armSlot_withSlots l s n⟩
  case armAt n t =>
    exact ⟨fun _ _ s => armSlotAt n t s, fun _ _ => rfl, fun _ _ l _ s => armSlotAt_withSlots l s n t⟩
  case stop n =>
    exact ⟨fun _ _ s => stopSlot n s, fun _ _ => rfl, fun _ _ l _ s => stopSlot_withSlots l s n⟩
  case hold n => exact ⟨fun _ => _, fun _ _ => rfl, fun _ _ l _ s => moveTotal_withSlots l s _ _ n⟩
  case resume n => exact ⟨fun _ => _, fun _ _ => rfl, fun _ _ l _ s => moveTotal_withSlots l s _ _ n⟩
  case markSetSource n v => exact ⟨fun _ => _, fun _ _ => rfl, fun _ _ l _ s => markerCommand_withSlots l s n _ _ rfl⟩
  case markSetInvert n v => exact ⟨fun _ => _, fun _ _ => rfl, fun _ _ l _ s => markerCommand_withSlots l s n _ _ rfl⟩
  case markSetWidth n v => exact ⟨fun _ => _, fun _ _ => rfl, fun _ _ l _ s => markerCommand_withSlots l s n _ _ rfl⟩
  case markLevel n v => exact ⟨fun _ => _, fun _ _ => rfl, fun _ _ l _ s => markerCommand_withSlots l s n _ _ rfl⟩
  case queueSet n =>
    refine ⟨fun _ => _, fun _ _ => rfl, fun _ _ l _ s => ?_⟩
    cases between 1 Config.resultCells n <;> rfl
  case unknownCommand => exact ⟨fun _ => _, fun _ _ => rfl, fun _ _ _ _ _ => rfl⟩

/-! ## A command's cell, by its destination -/

theorem selects_broadcast (n : Node) {c : Cell} (h : cellNode c = 15) :
    selects n (cellNode c) = .broadcast := if_pos h

theorem selects_other {s : State} {c : Cell} (h : ¬ Addresses s c) (h15 : cellNode c ≠ 15) :
    selects s.node (cellNode c) = .other := by
  obtain ⟨hzero, hnamed⟩ := not_or.mp h
  have hcell : cellNode c ≤ 15 := by
    unfold cellNode
    omega
  unfold selects
  rw [if_neg h15]
  split
  · rename_i h0
    rw [if_neg fun hu => hzero ⟨h0, hu⟩]
  · rename_i h0
    exact if_neg fun ha => hnamed ⟨by omega, by omega, ha⟩

/-- A broadcast command is carried out, not answered, and its cell relayed (R158, R165). -/
theorem takeCommand_broadcast {code : Nat} {c : Cell} {judge : Bool → State → Answer} {s : State}
    (h : Receiving s) (h15 : cellNode c = 15) :
    takeCommand code c judge s = (judge true (abandonLoad code (relayed c s))).state := by
  rw [takeCommand, receive_locked h, handCommand, selects_broadcast _ h15]
  rfl

theorem takeCommand_broadcast_quiet {code : Nat} {c : Cell} {judge : Bool → State → Answer} {s : State}
    (h : Receiving s) (h15 : cellNode c = 15) (hclosed : s.command.load.phase ≠ .opened) :
    takeCommand code c judge s = (judge true (relayed c s)).state := by
  rw [takeCommand_broadcast h h15, abandonLoad_of_closed code (by exact hclosed)]

/-- A command for another node is relayed (R158). -/
theorem takeCommand_other {code : Nat} {c : Cell} {judge : Bool → State → Answer} {s : State}
    (h : Receiving s) (hsel : selects s.node (cellNode c) = .other) :
    takeCommand code c judge s = relayed c s := by
  rw [takeCommand, receive_locked h, handCommand, hsel]
  rfl

/-- An addressed command that finds the reply queue full is discarded (R166). -/
theorem takeCommand_full {code : Nat} {c : Cell} {judge : Bool → State → Answer} {s : State}
    (h : Receiving s) (ha : Addresses s c) (hfull : 8 ≤ s.command.replies.length) :
    takeCommand code c judge s =
      raise .replyLost [num 8 (cellTag c).toNat, num 6 code] (consumed s) := by
  rw [takeCommand, receive_locked h, handCommand, selects_addressed ha]
  exact if_pos hfull

/-- A load is abandoned alike before and after a cell's slot is freed (R158, R176). -/
theorem abandonLoad_consumed (code : Nat) (s : State) :
    abandonLoad code (consumed s) = consumed (abandonLoad code s) := by
  rw [abandonLoad, abandonLoad, apply_ite consumed]
  rfl

theorem abandonLoad_relayed (code : Nat) (c : Cell) (s : State) :
    abandonLoad code (relayed c s) = relayed c (abandonLoad code s) := by
  rw [abandonLoad, abandonLoad, apply_ite (relayed c)]
  rfl

theorem abandonLoad_of_opened {code : Nat} {s : State} (h : s.command.load.phase = .opened)
    (hk : keepsLoad code = false) :
    abandonLoad code s =
      raise .load [num 4 s.command.load.target.code, num 7 s.command.load.words.length, num 6 code]
        (emptyLoad s) := by
  rw [abandonLoad, h, hk]
  rfl

/-- A command's row hands its cell on where the receiver is LOCKED (R156). -/
theorem exec_of_command {i : Instr} {code : Nat} {c : Cell} (h : i.command? = some (code, c)) :
    ∃ f : State → State → State, ∀ s, exec i s = .next (receive (f s) s) := by
  obtain ⟨rule, hrule⟩ := commandRule_of h
  refine ⟨fun s => handCommand code c (rule s.link.badRun), fun s => ?_⟩
  rw [← withCell_self h, hrule.exec_withCell, takeCommand]

/-- Every received data-form cell is handed on where the receiver is LOCKED (R156). -/
theorem exec_of_cell {i : Instr} {c : Cell} (h : i.cell? = some c) :
    ∃ f : State → State → State, ∀ s, exec i s = .next (receive (f s) s) := by
  cases i <;> cases h
  case relayCell => exact ⟨fun _ => _, fun _ => rfl⟩
  case edgeCell => exact ⟨fun _ => _, fun _ => rfl⟩
  case epochCell => exact ⟨fun _ => _, fun _ => rfl⟩
  all_goals exact exec_of_command rfl

/-! ## The four rules of a command's cell -/

/-- What a command leaves for a part that is the other in its waiting slots alone (R158). -/
theorem broadcast_eq {code : Nat} {c d : Cell} {rule : Bool → State → Answer} {s : State}
    (hrule : IgnoresSlots rule) (h15 : cellNode c = 15) (hd : Takes s d) :
    takeCommand code c rule s =
      withSlots (s.link.slots ++ [.relay c])
        { takeCommand code d rule s with
          command :=
            { (takeCommand code d rule s).command with
              replies := (takeCommand code d rule s).command.replies.dropLast } } := by
  have hrelayed : relayed c s = withSlots (s.link.slots ++ [.relay c]) (consumed s) := rfl
  rw [takeCommand_broadcast hd.1 h15, hrelayed, abandonLoad_withSlots, hrule, takeCommand_takes hd]
  have hback : ∀ (a : Answer) (tag : Byte),
      (queueReply tag a.code a.fields a.state).command.replies.dropLast =
        a.state.command.replies := fun a tag => List.dropLast_concat
  rw [carryOut, if_pos rfl, hback]
  rfl

/-- Settles O11: a rule ignores the waiting slots, and a reply that is queued is the last. -/
theorem broadcastActsAsAddressed : Obligations.BroadcastActsAsAddressed := by
  unfold Obligations.BroadcastActsAsAddressed
  refine ⟨fun i code c d s hi h0 _ h15 hd => ?_, fun c s hr h15 hclosed hfull => ?_⟩
  · obtain ⟨rule, hrule⟩ := commandRule_of hi
    refine ⟨_, hrule.exec_withCell d s, ?_⟩
    rw [← withCell_self hi, hrule.exec_withCell, broadcast_eq (hrule.ignores h0 _) h15 hd]
    rfl
  · refine ⟨fun hnamed => ?_, fun n => ?_, fun n hidle => ?_, fun n hlo hhi => ?_⟩
    · change execMode c 2 s = _
      rw [execMode, takeCommand_broadcast_quiet hr h15 hclosed, setMode, modeOf]
      dsimp only
      rw [if_neg (by exact hnamed)]
      rfl
    · change execChanWrite c n (.stream 1) s = _
      rw [execChanWrite, takeCommand_broadcast_quiet hr h15 hclosed, chanWrite, inRange_val]
      rfl
    · change execSlotSet c n (.repeats 0) s = _
      rw [execSlotSet, takeCommand_broadcast_quiet hr h15 hclosed, slotSet, inRange_val]
      dsimp only [SlotConfig.write]
      rw [if_pos (by rfl)]
      dsimp only
      rw [if_pos (by exact hidle)]
      rfl
    · change execQueueSet c n s = _
      have hbetween : between 1 Config.resultCells n = true := between_iff.mpr ⟨hlo, hhi⟩
      rw [execQueueSet, takeCommand_broadcast_quiet hr h15 hclosed, hbetween]
      rfl

/-- Settles O12: a command addressed to the part finds the reply queue full. -/
theorem fullReplyQueueDiscardsCommands : Obligations.FullReplyQueueDiscardsCommands := by
  unfold Obligations.FullReplyQueueDiscardsCommands
  intro i code c s hi hr ha hfull
  obtain ⟨rule, hrule⟩ := commandRule_of hi
  rw [← withCell_self hi, hrule.exec_withCell, takeCommand_full hr ha hfull]

/-- Settles O13: by the destination, and by the alignment. -/
theorem cellsThatThePartDoesNotTake : Obligations.CellsThatThePartDoesNotTake := by
  unfold Obligations.CellsThatThePartDoesNotTake
  refine ⟨fun i code c s hi hr hnot h15 _ => ?_, fun i c s hc => ?_⟩
  · obtain ⟨rule, hrule⟩ := commandRule_of hi
    rw [← withCell_self hi, hrule.exec_withCell, takeCommand_other hr (selects_other hnot h15)]
  · obtain ⟨f, hf⟩ := exec_of_cell hc
    rw [hf s]
    exact ⟨fun h => by rw [h.elim receive_held receive_hunt],
      fun hheld halign => by rw [receive_confirming hheld halign]; rfl⟩

theorem abandonLoad_link (code : Nat) (s : State) : (abandonLoad code s).link = s.link := by
  rcases abandonLoad_cases code s with h | ⟨-, -, h⟩ <;> simp [h, emptyLoad]

theorem abandonLoad_node (code : Nat) (s : State) : (abandonLoad code s).node = s.node := by
  rcases abandonLoad_cases code s with h | ⟨-, -, h⟩ <;> simp [h, emptyLoad]

theorem abandonLoad_held (code : Nat) (s : State) : (abandonLoad code s).held = s.held := by
  rcases abandonLoad_cases code s with h | ⟨-, -, h⟩ <;> simp [h, emptyLoad]

/-- A command that is taken does what it does once an OPEN load is abandoned (R176). -/
theorem takeCommand_abandons {code : Nat} {c : Cell} {rule : Bool → State → Answer} {s : State}
    (hr : Receiving s) (hsel : (Addresses s c ∧ s.command.replies.length < 8) ∨ cellNode c = 15)
    (hk : keepsLoad code = false) :
    takeCommand code c rule s = takeCommand code c rule (abandonLoad code s) := by
  have hr' : Receiving (abandonLoad code s) := by
    rwa [Receiving, abandonLoad_held, abandonLoad_link]
  have hdone : abandonLoad code (abandonLoad code s) = abandonLoad code s :=
    abandonLoad_of_closed code (abandonLoad_closes s hk)
  rcases hsel with ⟨ha, hlen⟩ | h15
  · have ht' : Takes (abandonLoad code s) c := by
      refine ⟨hr', ?_, ?_⟩
      · rwa [Addresses, abandonLoad_node]
      · rwa [abandonLoad_replies]
    rw [takeCommand_takes ⟨hr, ha, hlen⟩, takeCommand_takes ht', carryOut, carryOut,
      abandonLoad_consumed, abandonLoad_consumed, hdone]
  · rw [takeCommand_broadcast hr h15, takeCommand_broadcast hr' h15, abandonLoad_relayed,
      abandonLoad_relayed, hdone]

/-- Settles O14: the load is abandoned before the command is judged, so it may as well be abandoned first. -/
theorem otherCommandsAbandonAnOpenLoad : Obligations.OtherCommandsAbandonAnOpenLoad := by
  unfold Obligations.OtherCommandsAbandonAnOpenLoad
  intro i code c s hi hr hopen hsel hcode
  obtain ⟨rule, hrule⟩ := commandRule_of hi
  have hk : keepsLoad code = false := decide_eq_false hcode
  have hlater : raise .load
      [num 4 s.command.load.target.code, num 7 s.command.load.words.length, num 6 code]
      { s with command := { s.command with load := .reset } } = abandonLoad code s :=
    (abandonLoad_of_opened hopen hk).symm
  rw [hlater, ← withCell_self hi, hrule.exec_withCell, hrule.exec_withCell,
    takeCommand_abandons hr hsel hk, abandonLoad_link]

end Sys2Proof.Machine
end

section
/-!
SUPPORT. The commands of the node and of the Command Unit (chapter 12).
-/

namespace Sys2Proof.Machine

/-! ## NAME, MODE, and codes that name no command -/

theorem between_of_lt {lo hi n : Nat} (h : n < lo ∨ hi < n) : between lo hi n = false := by
  rw [← Bool.not_eq_true, between_iff]
  omega

theorem modeOf_none {m : Nat} (h1 : m ≠ 1) (h2 : m ≠ 2) : modeOf m = none := by
  match m, h1, h2 with
  | 0, _, _ => rfl
  | 1, h1, _ => exact absurd rfl h1
  | 2, _, h2 => exact absurd rfl h2
  | _ + 3, _, _ => rfl

theorem setMode_of_named {m : Nat} {state : NodeState} {s : State} (hm : modeOf m = some state)
    (h : s.node.state ≠ .unnamed) : setMode m s = setNode { s.node with state := state } s := by
  rw [setMode, hm]
  exact if_neg h

/-- Settles O15: NAME's and MODE's rules, case by case. -/
theorem nameAndModeSetTheNode : Obligations.NameAndModeSetTheNode := by
  unfold Obligations.NameAndModeSetTheNode
  refine ⟨fun c a s h => ⟨fun ha => ?_, fun ha => ?_⟩, fun c a s hr h15 hclosed => ?_, fun c m s h =>
    ⟨fun h1 h2 => ?_, fun hm hu => ?_, fun hn => ⟨?_, ?_⟩⟩⟩
  · change execName c a s = _
    rw [execName, takeCommand_quiet h, nameNode, if_neg Bool.false_ne_true,
      if_pos (between_iff.mpr ha)]
    rfl
  · change execName c a s = _
    rw [execName, takeCommand_quiet h, nameNode, between_of_lt (by omega)]
    rfl
  · change execName c a s = _
    rw [execName, takeCommand_broadcast_quiet hr h15 hclosed]
    rfl
  · change execMode c m s = _
    rw [execMode, takeCommand_quiet h, setMode, modeOf_none h1 h2]
    rfl
  · change execMode c m s = _
    have hstate : setMode m (consumed s) = .still (consumed s) .state s.node.fields := by
      rcases hm with rfl | rfl <;> exact if_pos hu
    rw [execMode, takeCommand_quiet h, hstate]
    rfl
  · change execMode c 1 s = _
    rw [execMode, takeCommand_quiet h, setMode_of_named rfl (by exact hn)]
    rfl
  · change execMode c 2 s = _
    rw [execMode, takeCommand_quiet h, setMode_of_named rfl (by exact hn)]
    rfl

/-- Settles O19: UNKNOWN is answered to any code that names no command. -/
theorem unknownCodesAreAnsweredUnknown : Obligations.UnknownCodesAreAnsweredUnknown := by
  unfold Obligations.UnknownCodesAreAnsweredUnknown
  intro c code s _ _ h
  change execUnknownCommand c code s = _
  rw [execUnknownCommand, takeCommand_quiet h]
  rfl

/-! ## IDENT and STATUS -/

/-- The cells of a bank in the order of their numbers. -/
theorem Bank.map_cells {α β : Type} {n : Nat} (b : Bank α n) (f : α → β) :
    b.cells.map f = (List.finRange n).map fun i => f (b.get i) := by
  obtain ⟨cells, rfl⟩ := b
  conv_lhs => rw [← List.map_get_finRange cells]
  rw [List.map_map]
  rfl

theorem exec_ident {c : Cell} {s : State} (h : TakesQuietly s c) {n : Nat} {fs : List Field}
    (hn : identFields n = some fs) :
    exec (.ident c n) s = .next (replied c .done fs (consumed s)) := by
  change execIdent c n s = _
  rw [execIdent, takeCommand_quiet h, hn]
  rfl

theorem exec_status {c : Cell} {s : State} (h : Takes s c) {item : StatusItem} {fs : List Field}
    (hi : statusFields s item = some fs) :
    exec (.status c item) s = .next (replied c .done fs (consumed s)) := by
  have hi' : statusFields (consumed s) item = some fs := by
    rw [← hi]
    cases item <;> rfl
  change execStatus c item s = _
  rw [execStatus, takeCommand_keeps h rfl, hi']
  rfl

/-- Settles O16: IDENT's numbers by evaluation, and STATUS's items by their contents. -/
theorem identAndStatusReport : Obligations.IdentAndStatusReport := by
  unfold Obligations.IdentAndStatusReport
  refine ⟨fun c s h => ⟨exec_ident h rfl, exec_ident h rfl, exec_ident h rfl, fun n hn => ?_⟩,
    fun c s h => ⟨exec_status h ?_, exec_status h ?_, exec_status h rfl, exec_status h rfl,
      exec_status h ?_, fun n => ?_⟩⟩
  · have hnone : identFields n = none := by
      obtain ⟨k, rfl⟩ := Nat.exists_eq_add_of_le' hn
      rfl
    change execIdent c n s = _
    rw [execIdent, takeCommand_quiet h, hnone]
    rfl
  · rw [statusFields, flagBits, enableBits, noticeBits, Bank.map_cells, Bank.map_cells, Bank.map_cells]
  · rw [statusFields, Bank.map_cells]
    rfl
  · rw [statusFields, Bank.map_cells]
  · change execStatus c (.other n) s = _
    rw [execStatus, takeCommand_keeps h rfl]
    rfl

/-! ## CLEAR, ATTN-SET and a raise -/

/-- Settles O17: the new attentions are the old ones by mask. -/
theorem clearAndAttnSet : Obligations.ClearAndAttnSet := by
  unfold Obligations.ClearAndAttnSet
  refine ⟨fun c mask errors s h => ⟨(s.command.clear mask).attns, fun k => ?_, ?_⟩,
    fun c enables notices mute s h =>
      ⟨(s.command.setMasks enables notices mute).attns, fun k => ?_, ?_⟩⟩
  · exact Bank.get_tabulate _ _
  · change execClear c mask errors s = _
    rw [execClear, takeCommand_quiet h, ← Bank.map_cells s.command.attns fun a => bit a.flag]
    rfl
  · exact Bank.get_tabulate _ _
  · change execAttnSet c enables notices mute s = _
    have hfields : enableBits (s.command.setMasks enables notices mute) ++
        noticeBits (s.command.setMasks enables notices mute) =
        (List.finRange 12).map (fun k => bit (enables.getMsbD k.val)) ++
          (List.finRange 12).map (fun k => bit (notices.getMsbD k.val)) := by
      rw [enableBits, noticeBits, Bank.map_cells, Bank.map_cells]
      simp only [CommandUnit.setMasks, Bank.get_tabulate, names]
    rw [execAttnSet, takeCommand_quiet h, ← hfields]
    rfl

/-- Settles O18: by the enable, and by what joins the pending-notice set. -/
theorem raiseActsByItsEnable : Obligations.RaiseActsByItsEnable := by
  unfold Obligations.RaiseActsByItsEnable
  refine fun k d s => ⟨raise_of_disabled d, fun hon => ?_⟩
  have hjoin : ∀ ks : List AttnKind,
      (if (s.command.attns.get k.code).joins then joinNotices k ks else ks) =
        if (s.command.attns.get k.code).flag = false ∧
            (s.command.attns.get k.code).notice = true ∧ k ∉ ks then ks ++ [k] else ks := by
    intro ks
    by_cases hmem : k ∈ ks <;> simp [Attn.joins, joinNotices, hon, hmem]
  rw [raise]
  dsimp only
  rw [hjoin, Attn.raise, if_pos hon]

end Sys2Proof.Machine
end

section
/-!
SUPPORT. The commands of the channels and of the Timebase, and EPOCH and EDGE cells that set little (chapters 1 to 3).
-/

namespace Sys2Proof.Machine

/-! ## Codes -/

theorem flagOf_of_le {v : Nat} (h : v ≤ 1) : ∃ b, flagOf v = some b := by
  interval_cases v <;> exact ⟨_, rfl⟩

theorem flagOf_none {v : Nat} (h : 2 ≤ v) : flagOf v = none := by
  obtain ⟨k, rfl⟩ := Nat.exists_eq_add_of_le' h
  rfl

theorem chanSenseOf_of_le {v : Nat} (h : v ≤ 2) : ∃ k, chanSenseOf v = some k := by
  interval_cases v <;> exact ⟨_, rfl⟩

theorem chanSenseOf_none {v : Nat} (h : 3 ≤ v) : chanSenseOf v = none := by
  obtain ⟨k, rfl⟩ := Nat.exists_eq_add_of_le' h
  rfl

/-! ## CHAN-WRITE -/

section ChanWrite
variable {c : Cell} {n : Fin 16} {arg : ChanArg} {s : State}

theorem exec_chanWrite_done {y : Channel} (h : TakesQuietly s c)
    (hw : (s.channels.get n).write arg = some y) (hfree : writesStream arg = true ∨ inUse s n = false) :
    exec (.chanWrite c n arg) s =
      .next (replied c .done ([num 4 n, num 3 (chanFieldCode arg)] ++ y.set.fieldValue arg)
        { consumed s with channels := s.channels.set n y }) := by
  have hw' : ((consumed s).channels.get n).write arg = some y := hw
  have hfree' : ¬ (!writesStream arg && inUse (consumed s) n) = true := by
    have : inUse (consumed s) n = inUse s n := rfl
    rcases hfree with h | h <;> simp [this, h]
  change execChanWrite c n arg s = _
  rw [execChanWrite, takeCommand_quiet h, chanWrite, inRange_val]
  dsimp only
  rw [hw']
  dsimp only
  rw [if_neg hfree']
  rfl

theorem exec_chanWrite_inUse (h : TakesQuietly s c) {y : Channel}
    (hw : (s.channels.get n).write arg = some y) (hstream : writesStream arg = false)
    (huse : inUse s n = true) :
    exec (.chanWrite c n arg) s =
      .next (replied c .inUse
        ([num 4 n, num 3 (chanFieldCode arg)] ++ (s.channels.get n).set.fieldValue arg)
        (consumed s)) := by
  have hw' : ((consumed s).channels.get n).write arg = some y := hw
  have huse' : (!writesStream arg && inUse (consumed s) n) = true := by
    have : inUse (consumed s) n = inUse s n := rfl
    simp [this, hstream, huse]
  change execChanWrite c n arg s = _
  rw [execChanWrite, takeCommand_quiet h, chanWrite, inRange_val]
  dsimp only
  rw [hw']
  dsimp only
  rw [if_pos huse']
  rfl

theorem exec_chanWrite_range (h : TakesQuietly s c) (hw : (s.channels.get n).write arg = none) :
    exec (.chanWrite c n arg) s =
      .next (replied c .range
        ([num 4 n, num 3 (chanFieldCode arg)] ++ (s.channels.get n).set.fieldValue arg)
        (consumed s)) := by
  have hw' : ((consumed s).channels.get n).write arg = none := hw
  change execChanWrite c n arg s = _
  rw [execChanWrite, takeCommand_quiet h, chanWrite, inRange_val]
  dsimp only
  rw [hw']
  rfl

end ChanWrite

theorem exec_chanWrite_no_channel {c : Cell} {s : State} (h : TakesQuietly s c) {ch : Nat}
    (hch : 16 ≤ ch) (arg : ChanArg) :
    exec (.chanWrite c ch arg) s =
      .next (replied c .range [num 4 ch, num 3 (chanFieldCode arg)] (consumed s)) := by
  change execChanWrite c ch arg s = _
  rw [execChanWrite, takeCommand_quiet h, chanWrite, inRange_of_le hch]
  rfl

/-- An invert written as it stands changes nothing, the level neither (R45). -/
theorem Channel.write_invert_same {x : Channel} {b : Bool} (h : x.set.invert = b) :
    x.write (.invert b.toNat) = some x := by
  obtain ⟨⟨_, _, invert, _, _, _, _, _⟩, _⟩ := x
  subst h
  cases invert <;> rfl

/-- Settles O28: each field by its write, and each refusal by the write or by use. -/
theorem chanWriteSetsOneField : Obligations.ChanWriteSetsOneField := by
  unfold Obligations.ChanWriteSetsOneField
  intro c n v d s h
  refine ⟨fun hfree => ⟨?_, ?_, ?_, ?_, ?_, fun hi => ?_, fun hi => ?_, fun hi => ?_, fun hi => ?_,
    fun t => ?_, fun hd => ?_, fun hv => ?_, fun hv => ?_⟩, ?_, ?_, fun huse =>
    ⟨fun hv => ?_, fun hv => ?_, fun hv => ?_, fun hv => ?_, fun hd => ?_, fun hv => ?_, fun hv => ?_⟩,
    fun hv => ?_, fun hv => ?_, fun hv => ?_, fun hv => ?_, fun hd => ?_, fun hv => ?_, fun hv => ?_,
    fun hv => ?_, ?_, fun ch hch => ⟨exec_chanWrite_no_channel h hch _, exec_chanWrite_no_channel h hch _⟩⟩
  · exact exec_chanWrite_done h rfl (.inr hfree)
  · refine exec_chanWrite_done (arg := .enable 1) h (congrArg some ?_) (.inr hfree)
    cases he : (s.channels.get n).set.enable <;> simp
  · exact exec_chanWrite_done (arg := .sense 0) h rfl (.inr hfree)
  · exact exec_chanWrite_done (arg := .sense 1) h rfl (.inr hfree)
  · exact exec_chanWrite_done (arg := .sense 2) h rfl (.inr hfree)
  · refine exec_chanWrite_done (arg := .invert 1) h (congrArg some ?_) (.inr hfree)
    rw [hi]
    rfl
  · refine (exec_chanWrite_done (arg := .invert 1) h (Channel.write_invert_same hi) (.inr hfree)).trans ?_
    rw [ChanSettings.fieldValue, hi]
    rfl
  · refine exec_chanWrite_done (arg := .invert 0) h (congrArg some ?_) (.inr hfree)
    rw [hi]
    rfl
  · refine (exec_chanWrite_done (arg := .invert 0) h (Channel.write_invert_same hi) (.inr hfree)).trans ?_
    rw [ChanSettings.fieldValue, hi]
    rfl
  · exact exec_chanWrite_done (arg := .table t) h (by rw [Channel.write, inRange_val]; rfl) (.inr hfree)
  · exact exec_chanWrite_done (arg := .deskew d) h (if_pos hd) (.inr hfree)
  · rw [exec_chanWrite_done (arg := .holdoff v) h (if_pos hv) (.inr hfree)]
    have hword : (BitVec.ofNat 16 v).toNat = v := by
      rw [BitVec.toNat_ofNat]
      omega
    simp only [ChanSettings.fieldValue, hword]
    rfl
  · exact exec_chanWrite_done (arg := .prescale v) h (if_pos (between_iff.mpr hv)) (.inr hfree)
  · exact exec_chanWrite_done (arg := .stream 1) h rfl (.inl rfl)
  · exact exec_chanWrite_done (arg := .stream 0) h rfl (.inl rfl)
  · obtain ⟨b, hb⟩ := flagOf_of_le hv
    exact exec_chanWrite_inUse (arg := .enable v) h (by rw [Channel.write, hb]; rfl) rfl huse
  · obtain ⟨b, hb⟩ := chanSenseOf_of_le hv
    exact exec_chanWrite_inUse (arg := .sense v) h (by rw [Channel.write, hb]; rfl) rfl huse
  · obtain ⟨b, hb⟩ := flagOf_of_le hv
    exact exec_chanWrite_inUse (arg := .invert v) h (by rw [Channel.write, hb]; rfl) rfl huse
  · exact exec_chanWrite_inUse (arg := .table v) h
      (by rw [Channel.write, inRange_of_lt (by omega)]; rfl) rfl huse
  · exact exec_chanWrite_inUse (arg := .deskew d) h (if_pos hd) rfl huse
  · exact exec_chanWrite_inUse (arg := .holdoff v) h (if_pos hv) rfl huse
  · exact exec_chanWrite_inUse (arg := .prescale v) h (if_pos (between_iff.mpr hv)) rfl huse
  · exact exec_chanWrite_range (arg := .enable v) h (by rw [Channel.write, flagOf_none hv]; rfl)
  · exact exec_chanWrite_range (arg := .sense v) h (by rw [Channel.write, chanSenseOf_none hv]; rfl)
  · exact exec_chanWrite_range (arg := .invert v) h (by rw [Channel.write, flagOf_none hv]; rfl)
  · exact exec_chanWrite_range (arg := .table v) h (by rw [Channel.write, inRange_of_le hv]; rfl)
  · exact exec_chanWrite_range (arg := .deskew d) h (if_neg (by omega))
  · exact exec_chanWrite_range (arg := .holdoff v) h (if_neg (by omega))
  · exact exec_chanWrite_range (arg := .prescale v) h
      (if_neg (by rw [between_of_lt (by omega)]; decide))
  · exact exec_chanWrite_range (arg := .stream v) h (by rw [Channel.write, flagOf_none hv]; rfl)
  · exact exec_chanWrite_range (arg := .other v) h rfl

/-! ## CHAN-READ -/

theorem coarsePart_toNat (l : Stamp) : (coarsePart l).toNat = l.toNat / 4096 := by
  rw [coarsePart, BitVec.extractLsb'_toNat, Nat.shiftRight_eq_div_pow]
  omega

theorem fraction_toNat (l : Stamp) : (fraction l).toNat = l.toNat % 4096 := by
  rw [fraction, BitVec.extractLsb'_toNat, Nat.shiftRight_zero]

theorem exec_chanRead_some {c : Cell} {n : Fin 16} {item : ChanItem} {s : State} {fs : List Field}
    {y : Channel} (h : TakesQuietly s c) (hr : (s.channels.get n).read item = some (fs, y)) :
    exec (.chanRead c n item) s =
      .next (replied c .done fs { consumed s with channels := s.channels.set n y }) := by
  have hr' : ((consumed s).channels.get n).read item = some (fs, y) := hr
  change execChanRead c n item s = _
  rw [execChanRead, takeCommand_quiet h, chanRead, inRange_val]
  dsimp only
  rw [hr']
  rfl

/-- A read that leaves its channel as it was leaves the state so. -/
theorem exec_chanRead_still {c : Cell} {n : Fin 16} {item : ChanItem} {s : State} {fs : List Field}
    (h : TakesQuietly s c) (hr : (s.channels.get n).read item = some (fs, s.channels.get n)) :
    exec (.chanRead c n item) s = .next (replied c .done fs (consumed s)) := by
  rw [exec_chanRead_some h hr, Bank.set_get_self]
  rfl

/-- Settles O29: each item by what it reads and clears. -/
theorem chanReadReportsAndClears : Obligations.ChanReadReportsAndClears := by
  unfold Obligations.ChanReadReportsAndClears
  refine fun c n s h => ⟨exec_chanRead_still h rfl, exec_chanRead_still h rfl, exec_chanRead_some h rfl,
    exec_chanRead_some h rfl, fun hl => ⟨exec_chanRead_still h ?_, exec_chanRead_still h ?_⟩,
    fun l hl => ⟨exec_chanRead_still h ?_, exec_chanRead_still h ?_⟩, fun k => ?_⟩
  · rw [Channel.read, hl]
    rfl
  · rw [Channel.read, hl]
    rfl
  · rw [Channel.read, hl]
    rw [Option.map_some, coarsePart_toNat]
    rfl
  · rw [Channel.read, hl]
    dsimp only
    rw [fraction_toNat, BitVec.toNat_setWidth, coarsePart_toNat]
    rfl
  · change execChanRead c n (.other k) s = _
    rw [execChanRead, takeCommand_quiet h, chanRead, inRange_val]
    rfl

/-! ## Releases and W (R77, R82) -/

/-- The later of W and a stamp, to which a release or an advance moves W (R77). -/
theorem moveMark_mark (f : Stamp) (s : State) :
    (moveMark f s).queue.mark = if later f s.queue.mark then f else s.queue.mark := by
  rw [moveMark_queue]
  split <;> rfl

theorem release_mark_eq (s : State) (e : Edge) :
    (release s e).queue.mark = if later e.stamp s.queue.mark then e.stamp else s.queue.mark := by
  rw [release_queue]
  split <;> rfl

/-- Over releases W moves from stamp to stamp (R77, R82). -/
theorem foldl_release_mark_eq (out : List Edge) (s : State) :
    (out.foldl release s).queue.mark =
      (out.map (·.stamp)).foldl (fun w x => if later x w then x else w) s.queue.mark := by
  induction out generalizing s with
  | nil => rfl
  | cons e es ih => rw [List.foldl_cons, ih, release_mark_eq]; rfl

theorem frontierAdvance_mark_eq (f : Stamp) (s : State) :
    (frontierAdvance f s).queue.mark =
      ((s.queue.entries.takeWhile fun e => !later e.stamp f).map (·.stamp) ++ [f]).foldl
        (fun w x => if later x w then x else w) s.queue.mark := by
  rw [frontierAdvance, moveMark_mark, foldl_release_mark_eq, List.foldl_append]
  rfl

/-! ## With every slot IDLE -/

theorem due_of_idle {x : Slot} (h : x.state = .idle) (w : Stamp) : x.due w = [] := by
  have : x.boundaries = [] := by rw [Slot.boundaries, h]
  rw [Slot.due, Slot.reached, this]
  rfl

theorem foldl_eq_self {α β : Type} {f : β → α → β} {b : β} (h : ∀ a, f b a = b) (as : List α) :
    as.foldl f b = b := by
  induction as with
  | nil => rfl
  | cons a as ih => rw [List.foldl_cons, h, ih]

/-- Over a move of W an IDLE slot has nothing to take (R92). -/
theorem moveMark_slots_of_idle {s : State} (h : ∀ i, (s.slots.get i).state = .idle) (f : Stamp) :
    (moveMark f s).slots = s.slots := by
  unfold moveMark
  split
  · rw [foldl_eq_self]
    intro i
    exact settleSlot_of_none_due (due_of_idle (h i) _)
  · rfl

/-- No edge is delivered to an IDLE slot (R83). -/
theorem release_slots_of_idle {s : State} (h : ∀ i, (s.slots.get i).state = .idle) (e : Edge) :
    (release s e).slots = s.slots := by
  have hmoved := moveMark_slots_of_idle h e.stamp
  have hquiet : ∀ t : State, t.slots = s.slots → ∀ i, deliverTo e t i = t := by
    intro t ht i
    have : (t.slots.get i).references e.channel = false := by
      rw [Slot.references, ht, h i]
      rfl
    rw [deliverTo]
    exact if_neg (by rw [this]; decide)
  have hoffered : (if ((moveMark e.stamp s).channels.get e.channel).set.stream then
      offer e.stampRecord (moveMark e.stamp s) else moveMark e.stamp s).slots = s.slots := by
    split
    · rw [offer_slots, hmoved]
    · exact hmoved
  unfold release deliverEdge
  dsimp only
  rw [foldl_eq_self (hquiet _ hoffered)]
  exact hoffered

theorem foldl_release_slots_of_idle {s : State} (h : ∀ i, (s.slots.get i).state = .idle)
    (out : List Edge) : (out.foldl release s).slots = s.slots := by
  induction out generalizing s with
  | nil => rfl
  | cons e es ih =>
    have he := release_slots_of_idle h e
    rw [List.foldl_cons, ih (by rwa [he]), he]

theorem frontierAdvance_slots_of_idle {s : State} (h : ∀ i, (s.slots.get i).state = .idle)
    (f : Stamp) : (frontierAdvance f s).slots = s.slots := by
  have hout : ∀ (es : List Edge) (q : OrderingQueue),
      (es.foldl release { s with queue := q }).slots = s.slots :=
    fun es q => foldl_release_slots_of_idle (s := { s with queue := q }) h es
  rw [frontierAdvance, moveMark_slots_of_idle (fun i => by rw [hout]; exact h i), hout]

theorem Bank.any_iff {α : Type} {n : Nat} (b : Bank α n) (p : α → Bool) :
    b.cells.any p = true ↔ ∃ i, p (b.get i) = true := by
  have hcells : b.cells = (List.finRange n).map b.get := by
    simpa using Bank.map_cells b id
  rw [hcells]
  simp

/-! ## TIME-SET -/

theorem exec_timeSetHorizon {c : Cell} {s : State} (h : TakesQuietly s c) (n : Nat) :
    exec (.timeSetHorizon c n) s =
      .next (replied c (setHorizon n (consumed s)).code (setHorizon n (consumed s)).fields
        (setHorizon n (consumed s)).state) := by
  change execTimeSetHorizon c n s = _
  rw [execTimeSetHorizon, takeCommand_quiet h]

theorem setHorizon_of_range {n : Nat} (s : State) (h : n < 256 ∨ 65535 < n) :
    setHorizon n s = .still s .range s.timebase.report := by
  rw [setHorizon, between_of_lt h]
  rfl

theorem setHorizon_of_inUse {n : Nat} {s : State} (h : 256 ≤ n ∧ n ≤ 65535)
    (hr : ∃ i, (s.slots.get i).state ≠ .idle) :
    setHorizon n s = .still s .inUse s.timebase.report := by
  have hany : (s.slots.cells.any (·.state != .idle)) = true := by
    rw [Bank.any_iff]
    simpa using hr
  rw [setHorizon, between_iff.mpr h, if_neg (by decide), if_pos hany]

theorem setHorizon_of_idle {n : Nat} {s : State} (h : 256 ≤ n ∧ n ≤ 65535)
    (hr : ∀ i, (s.slots.get i).state = .idle) :
    setHorizon n s = ⟨changeHorizon n s, .done, (changeHorizon n s).timebase.report⟩ := by
  have hany : ¬ (s.slots.cells.any (·.state != .idle)) = true := by
    rw [Bank.any_iff]
    simpa using hr
  rw [setHorizon, between_iff.mpr h, if_neg (by decide), if_neg hany]

/-- Settles O23: each form of the command by its rule, a smaller horizon by the frontier advance. -/
theorem timeSetCommands : Obligations.TimeSetCommands := by
  unfold Obligations.TimeSetCommands
  refine fun c n s h => ⟨fun hn => ?_, fun hn => ?_, ?_, ?_, fun hn => ?_, fun hlo hhi hr => ?_,
    fun hlo hhi hr => ⟨fun hn => ?_, fun hn => ?_⟩⟩
  · change execTimeSetTrim c n s = _
    have htrim : (BitVec.ofNat 10 n).toNat = n := by
      rw [BitVec.toNat_ofNat]
      omega
    rw [execTimeSetTrim, takeCommand_quiet h, setTrim, if_pos hn]
    dsimp only [Timebase.report]
    rw [htrim]
    rfl
  · change execTimeSetTrim c n s = _
    rw [execTimeSetTrim, takeCommand_quiet h, setTrim, if_neg (by omega)]
    rfl
  · change execTimeSetReport c s = _
    rw [execTimeSetReport, takeCommand_quiet h]
    rfl
  · change execTimeSetCount c s = _
    rw [execTimeSetCount, takeCommand_quiet h]
    rfl
  · rw [exec_timeSetHorizon h, setHorizon_of_range _ hn]
    rfl
  · rw [exec_timeSetHorizon h, setHorizon_of_inUse (s := consumed s) ⟨hlo, hhi⟩ hr]
    rfl
  · rw [exec_timeSetHorizon h, setHorizon_of_idle (s := consumed s) ⟨hlo, hhi⟩ hr,
      changeHorizon_eq,      if_neg (by exact Nat.not_lt.mpr hn)]
    rfl
  · have hrun := (frontierAdvance_moves (withHorizon n (consumed s)).timebase.frontier
      (withHorizon n (consumed s))).same
    refine ⟨_, exec_timeSetHorizon h n, ?_⟩
    rw [setHorizon_of_idle (s := consumed s) ⟨hlo, hhi⟩ hr, changeHorizon_eq, if_pos (by exact hn)]
    refine ⟨⟨congrArg (fun b => replied c .done (Timebase.report b) _) hrun.timebase, hrun.timebase,
      frontierAdvance_entries _ _, frontierAdvance_mark_eq _ _, frontierAdvance_mark _ _, rfl, rfl⟩,
      frontierAdvance_slots_of_idle (s := withHorizon n (consumed s)) hr _, ?_, hrun.pending, hrun.link,
      hrun.node, hrun.map, hrun.channels, hrun.tables, hrun.cal, hrun.plan, hrun.markerTime⟩
    dsimp only [replied]
    rw [hrun.replies, hrun.timebase]
    rfl

/-! ## EPOCH cells (R7 to R11) -/

theorem exec_epochCell {s : State} (h : Receiving s) (c : Cell) (e : Coarse) :
    exec (.epochCell c e) s = .next (takeEpoch e (relayed c s)) := by
  change execEpochCell c e s = _
  rw [execEpochCell, receive_locked h]
  rfl

/-- In UNSET the count is loaded (R8). -/
theorem takeEpoch_loads {s : State} {e : Coarse} (h : s.timebase.epoch = .unset) :
    takeEpoch e s =
      raise .epoch [num 1 0]
        (stepActions { s with
          timebase :=
            { s.timebase with
              count := s.timebase.target e, epoch := .set, outcome := .loaded, offset := 0 } }) := by
  unfold takeEpoch
  dsimp only
  split
  · rfl
  · rename_i hset
    cases h.symm.trans hset

/-- In SET a target within one of the count confirms it (R9). -/
theorem takeEpoch_confirm {s : State} {e : Coarse} (h : s.timebase.epoch = .set)
    (hin : -1 ≤ coarseDiff (s.timebase.target e) s.timebase.count ∧
      coarseDiff (s.timebase.target e) s.timebase.count ≤ 1) :
    takeEpoch e s =
      { s with
        timebase :=
          { s.timebase with
            outcome := .confirm, offset := coarseDiff (s.timebase.target e) s.timebase.count } } := by
  unfold takeEpoch
  dsimp only
  split
  · rename_i hunset
    cases h.symm.trans hunset
  · exact if_pos hin

/-- In SET any other target loads the count (R9, R10). -/
theorem takeEpoch_steps {s : State} {e : Coarse} (h : s.timebase.epoch = .set)
    (hout : ¬ (-1 ≤ coarseDiff (s.timebase.target e) s.timebase.count ∧
      coarseDiff (s.timebase.target e) s.timebase.count ≤ 1)) :
    takeEpoch e s =
      raise .epoch [num 1 1]
        (stepActions { s with
          timebase :=
            { s.timebase with
              count := s.timebase.target e, outcome := .step
              offset := saturateOffset (coarseDiff (s.timebase.target e) s.timebase.count) } }) := by
  unfold takeEpoch
  dsimp only
  split
  · rename_i hunset
    cases h.symm.trans hunset
  · exact if_neg hout

/-- Settles O22: the target lies within one of the count. -/
theorem epochConfirmChangesOnlyTheRecord : Obligations.EpochConfirmChangesOnlyTheRecord := by
  unfold Obligations.EpochConfirmChangesOnlyTheRecord
  intro c e s h hset hlo hhi
  rw [exec_epochCell h, takeEpoch_confirm (s := relayed c s) hset ⟨hlo, hhi⟩]
  rfl

/-! ## EDGE cells (R17 to R21) -/

/-- An EDGE cell by the entry of its lane (R18, R19). -/
theorem exec_edgeCell {s : State} (h : Receiving s) (c : Cell) (slice : Fin 32) (lane : Fin 4)
    (sense : Sense) (k : BitVec 16) (fine : Fin 256) (lost : Bool) {entry : MapEntry}
    (he : captureEntry s slice lane = entry) :
    (entry.action = .pass → exec (.edgeCell c slice lane sense k fine lost) s = .next (relayed c s)) ∧
    (entry.action = .take → exec (.edgeCell c slice lane sense k fine lost) s =
      .next (channelEdge entry.channel sense k fine lost (consumed s))) ∧
    (entry.action = .copy → exec (.edgeCell c slice lane sense k fine lost) s =
      .next (channelEdge entry.channel sense k fine lost (relayed c s))) := by
  have hexec : exec (.edgeCell c slice lane sense k fine lost) s =
      execEdgeCell c slice lane sense k fine lost s := rfl
  have hentry : captureEntry { s with link := { s.link with badRun := 0 } } slice lane = entry := he
  rw [hexec, execEdgeCell, receive_locked h]
  dsimp only
  rw [hentry]
  exact ⟨fun ha => by rw [ha]; rfl, fun ha => by rw [ha]; rfl, fun ha => by rw [ha]; rfl⟩

theorem captureEntry_of_bypass {s : State} (h : s.node.state = .bypass) (slice : Fin 32)
    (lane : Fin 4) : (captureEntry s slice lane).action = .pass := by
  rw [captureEntry, if_pos h]

theorem captureEntry_of_not_bypass {s : State} (h : s.node.state ≠ .bypass) {slice : Fin 32}
    {lane : Fin 4} {index : Fin 128} (hi : index.val = slice.val * 4 + lane.val) :
    captureEntry s slice lane = s.map.get index := by
  rw [captureEntry, if_neg h]
  exact congrArg s.map.get (Fin.ext hi.symm)

/-- A disabled channel discards its edge (R20). -/
theorem channelEdge_of_disabled {s : State} {ch : Fin 16} (h : (s.channels.get ch).set.enable = false)
    (sense : Sense) (k : BitVec 16) (fine : Fin 256) (lost : Bool) :
    channelEdge ch sense k fine lost s = s := by
  rw [channelEdge]
  exact if_neg (by rw [h]; decide)

/-- Settles O24: by the entry of the lane, and by the channel's enable. -/
theorem edgesPassedByOrDiscardedAtEntry : Obligations.EdgesPassedByOrDiscardedAtEntry := by
  unfold Obligations.EdgesPassedByOrDiscardedAtEntry
  refine fun c slice lane sense k fine lost index s h hi => ⟨fun hpass => ?_, fun hn hoff => ?_⟩
  · refine (exec_edgeCell h c slice lane sense k fine lost rfl).1 ?_
    by_cases hb : s.node.state = .bypass
    · exact captureEntry_of_bypass hb slice lane
    · rw [captureEntry_of_not_bypass hb hi]
      exact hpass.resolve_left hb
  · obtain ⟨-, htake, hcopy⟩ :=
      exec_edgeCell h c slice lane sense k fine lost (captureEntry_of_not_bypass hn hi)
    exact ⟨fun ha => by rw [htake ha, channelEdge_of_disabled (by exact hoff)],
      fun ha => by rw [hcopy ha, channelEdge_of_disabled (by exact hoff)]⟩

end Sys2Proof.Machine
end

section
/-!
SUPPORT. An edge's path through its channel and its stamp (chapters 2 and 3).
-/

namespace Sys2Proof.Machine

/-! ## Coarse extension and the fraction -/

/-- Coarse extension gives back a count of the window (R26, R27). -/
theorem extendCoarse_of_window {count own : Coarse} (hlo : -4095 ≤ coarseDiff count own)
    (hhi : coarseDiff count own ≤ 61440) : extendCoarse count (own.setWidth 16) = own := by
  have hage : coarseAge count (own.setWidth 16) = (count - own).toNat % 65536 := by
    rw [coarseAge, BitVec.toNat_sub, BitVec.toNat_sub, BitVec.toNat_setWidth, BitVec.toNat_setWidth]
    omega
  have hdiff := BitVec.toInt_eq_toNat_cond (count - own)
  rw [coarseDiff] at hlo hhi
  unfold extendCoarse
  dsimp only
  rw [hage]
  rcases Nat.lt_or_ge (2 * (count - own).toNat) (2 ^ 47) with hpos | hneg
  · rw [if_pos hpos] at hdiff
    have hold : (count - own).toNat % 65536 ≤ Config.oldestAge := by
      rw [Config.oldestAge]
      omega
    rw [if_pos hold]
    bv_omega
  · rw [if_neg (by omega)] at hdiff
    have hearly : ¬ (count - own).toNat % 65536 ≤ Config.oldestAge := by
      rw [Config.oldestAge]
      omega
    rw [if_neg hearly]
    bv_omega

/-- Settles O26: the window of coarse extension, and a table's fraction by its state. -/
theorem coarseCountAndFractionOfAnEdge : Obligations.CoarseCountAndFractionOfAnEdge := by
  unfold Obligations.CoarseCountAndFractionOfAnEdge
  refine ⟨fun count own => extendCoarse_of_window, fun t fine => ⟨fun h => ?_, fun h => ?_,
    fun n merged h => ?_⟩⟩
  · rw [Table.lookup, h]
  · rw [Table.lookup, h]
  · rw [Table.lookup, h]
    exact ⟨(nominalFraction_toNat fine).trans (by omega), rfl⟩

/-! ## The stamp and its judgement -/

theorem edgeStamp_eq (full : Coarse) (fr : BitVec 12) (deskew : BitVec 21) :
    edgeStamp full fr deskew =
      BitVec.ofNat 59 (full.toNat * 4096 + fr.toNat) - deskew.signExtend 59 := by
  rw [edgeStamp]
  congr 1
  apply BitVec.eq_of_toNat_eq
  have hstamp : (stampOf full).toNat = full.toNat * 4096 := by
    rw [stampOf, BitVec.toNat_append, Nat.shiftLeft_eq]
    simp
  rw [BitVec.toNat_add, hstamp, BitVec.toNat_setWidth, BitVec.toNat_ofNat]
  omega

section Judgement
variable {g : ChanSettings} {st : ChanStatus} {stamp l : Stamp}

/-- A stamp not later than the last accepted one is an order fault (R40). -/
theorem judgeStamp_orderFault (hl : st.last = some l) (h : later stamp l = false) :
    judgeStamp g st stamp =
      (.orderFault, { st with orderFaults := min 65535 (st.orderFaults + 1) }) := by
  rw [judgeStamp, hl]
  dsimp only
  rw [if_pos (by rw [notLater, h]; rfl), countUp_eq_min]
  rfl

/-- A stamp within the holdoff of the last accepted one is suppressed (R41). -/
theorem judgeStamp_suppressed (hl : st.last = some l) (h : later stamp l = true)
    (hhold : stampDiff stamp l < (g.holdoff.toNat * 4096 : Nat)) :
    judgeStamp g st stamp =
      (.suppressed, { st with suppressed := min 65535 (st.suppressed + 1) }) := by
  rw [judgeStamp, hl]
  dsimp only
  rw [if_neg (by rw [notLater, h]; decide), if_pos (by exact hhold), countUp_eq_min]
  rfl

/-- A stamp that passes the order check and the holdoff is accepted, and qualified at the end of the prescale
(R42). -/
theorem judgeStamp_accepted (h : ∀ l, st.last = some l → later stamp l = true ∧
    ((g.holdoff.toNat * 4096 : Nat) : Int) ≤ stampDiff stamp l) :
    judgeStamp g st stamp =
      if g.prescale ≤ st.phase + 1 then (.qualified, { st with last := some stamp, phase := 0 })
      else (.uncounted, { st with last := some stamp, phase := st.phase + 1 }) := by
  rw [judgeStamp]
  rcases hl : st.last with _ | l
  · rfl
  · obtain ⟨hlater, hhold⟩ := h l hl
    dsimp only
    rw [if_neg (by rw [notLater, hlater]; decide), if_neg (by exact Int.not_lt.mpr hhold)]

end Judgement

/-! ## The channel -/

theorem Bank.set_set {α : Type} {n : Nat} (b : Bank α n) (i : Fin n) (x y : α) :
    (b.set i x).set i y = b.set i y :=
  Bank.ext_get fun j => by by_cases h : j = i <;> simp [Bank.get_set, h]

theorem setStatus_setStatus (c : Fin 16) (a b : ChanStatus) (s : State) :
    setStatus c b (setStatus c a s) = setStatus c b s := by
  simp [setStatus, State.setChannel, Bank.set_set]

/-- A hit of the run counts in its code's bin (R65). -/
def hit (fine : Fin 256) (s : State) : State :=
  { s with cal := { s.cal with bins := s.cal.bins.modify fine (· + 1), hits := s.cal.hits + 1 } }

theorem calibrationTap_eq (c : Fin 16) (fine : Fin 256) (s : State) :
    calibrationTap c fine s =
      if s.cal.active && s.cal.channel == c then
        if (hit fine s).cal.complete then completeCalibration (hit fine s) else hit fine s
      else s := rfl

section SetChannel
variable (d : Fin 16) (x : Channel)

theorem setChannel_ite {p : Prop} [Decidable p] (s t : State) :
    (if p then s.setChannel d x else t.setChannel d x) = (if p then s else t).setChannel d x :=
  (apply_ite (fun u : State => u.setChannel d x) p s t).symm

theorem completeCalibration_setChannel (s : State) :
    completeCalibration (s.setChannel d x) = (completeCalibration s).setChannel d x := by
  rw [completeCalibration, completeCalibration, ← setChannel_ite]
  rfl

theorem calibrationTap_setChannel (c : Fin 16) (fine : Fin 256) (s : State) :
    calibrationTap c fine (s.setChannel d x) = (calibrationTap c fine s).setChannel d x := by
  have hhit : hit fine (s.setChannel d x) = (hit fine s).setChannel d x := rfl
  rw [calibrationTap_eq, calibrationTap_eq, ← setChannel_ite, ← setChannel_ite, hhit,
    completeCalibration_setChannel]
  rfl

end SetChannel

theorem calibrationTap_channels (c : Fin 16) (fine : Fin 256) (s : State) :
    (calibrationTap c fine s).channels = s.channels := by
  have hcomplete : ∀ t, (completeCalibration t).channels = t.channels := fun t => by
    unfold completeCalibration
    dsimp only
    split <;> rfl
  rw [calibrationTap_eq]
  split
  · split
    · rw [hcomplete]
      rfl
    · rfl
  · rfl

theorem calibrationTap_setStatus (c d : Fin 16) (fine : Fin 256) (st : ChanStatus) (s : State) :
    calibrationTap c fine (setStatus d st s) = setStatus d st (calibrationTap c fine s) := by
  rw [setStatus, calibrationTap_setChannel, setStatus, calibrationTap_channels]

/-- The stamp that an edge on a channel with settings `g` gets where it arrives at a part as `s` stands (R39). -/
def arrivalStamp (s : State) (g : ChanSettings) (k : BitVec 16) (fine : Fin 256) : Stamp :=
  edgeStamp (extendCoarse s.timebase.count k) ((s.tables.get g.table).lookup fine).1 g.deskew

/-- The edge that a channel qualifies (R39, R43). -/
def qualifiedEdge (s : State) (g : ChanSettings) (c : Fin 16) (label : Sense) (k : BitVec 16)
    (fine : Fin 256) (lost : Bool) : Edge :=
  ⟨c, label, arrivalStamp s g k fine,
    ⟨((s.tables.get g.table).lookup fine).2, lost, s.timebase.epoch == .unset⟩⟩

section Path
variable {s : State} {c : Fin 16} {x : Channel} {sense : Sense} {k : BitVec 16} {fine : Fin 256}
  {lost : Bool} {st : ChanStatus}

/-- An edge that the sense filter stops sets the level and the source-gap flag (R35, R36). -/
theorem channelEdge_filtered (hx : s.channels.get c = x) (hon : x.set.enable = true)
    (hf : x.set.sense.passes (x.set.label sense) = false) :
    channelEdge c sense k fine lost s =
      setStatus c (x.status.enter (x.set.label sense) lost) s := by
  subst hx
  rw [channelEdge, if_pos hon]
  exact if_neg (by rw [hf]; decide)

/-- An edge that passes the sense filter is offered to the calibration and stamped (R34). -/
theorem channelEdge_passed (hx : s.channels.get c = x) (hon : x.set.enable = true)
    (hp : x.set.sense.passes (x.set.label sense) = true)
    (hst : x.status.enter (x.set.label sense) lost = st) :
    channelEdge c sense k fine lost s =
      stampEdge c (x.set.label sense) k fine lost s (setStatus c st (calibrationTap c fine s)) := by
  subst hx hst
  rw [channelEdge, if_pos hon]
  dsimp only
  rw [if_pos hp, calibrationTap_setStatus]

theorem setStatus_get {t : State} (hx : t.channels.get c = x) :
    (setStatus c st t).channels.get c = { x with status := st } := by
  subst hx
  exact Bank.get_set_self _ _ _

/-- An order fault raises ORDER (R40). -/
theorem stampEdge_orderFault {label : Sense} {t : State} {st' : ChanStatus}
    (hx : t.channels.get c = x)
    (hj : judgeStamp x.set st (arrivalStamp s x.set k fine) = (.orderFault, st')) :
    stampEdge c label k fine lost s (setStatus c st t) = raise .order [num 4 c] (setStatus c st' t) := by
  unfold stampEdge
  rw [setStatus_get hx]
  dsimp only
  rw [setStatus_setStatus, ← arrivalStamp, hj]

/-- A suppressed or uncounted edge goes no further (R41, R42). -/
theorem stampEdge_stopped {label : Sense} {t : State} {v : Verdict} {st' : ChanStatus}
    (hx : t.channels.get c = x)
    (hj : judgeStamp x.set st (arrivalStamp s x.set k fine) = (v, st'))
    (hv : v = .suppressed ∨ v = .uncounted) :
    stampEdge c label k fine lost s (setStatus c st t) = setStatus c st' t := by
  unfold stampEdge
  rw [setStatus_get hx]
  dsimp only
  rw [setStatus_setStatus, ← arrivalStamp, hj]
  rcases hv with rfl | rfl <;> rfl

/-- A qualified edge arrives at the Ordering Queue (R43). -/
theorem stampEdge_qualified {label : Sense} {t : State} {st' : ChanStatus}
    (hx : t.channels.get c = x)
    (hj : judgeStamp x.set st (arrivalStamp s x.set k fine) = (.qualified, st')) :
    stampEdge c label k fine lost s (setStatus c st t) =
      arrive (qualifiedEdge s x.set c label k fine lost) (setStatus c st' t) := by
  unfold stampEdge
  rw [setStatus_get hx]
  dsimp only
  rw [setStatus_setStatus, ← arrivalStamp, hj]
  rfl

end Path

/-- The path of an edge on the channel of its lane's entry, the cell relayed or consumed first. -/
theorem exec_edgeCell_channel {s : State} (h : Receiving s) (c : Cell) {slice : Fin 32} {lane : Fin 4}
    (sense : Sense) (k : BitVec 16) (fine : Fin 256) (lost : Bool) {index : Fin 128}
    (hi : index.val = slice.val * 4 + lane.val) (hn : s.node.state ≠ .bypass)
    (hp : (s.map.get index).action ≠ .pass) :
    exec (.edgeCell c slice lane sense k fine lost) s =
      .next (channelEdge (s.map.get index).channel sense k fine lost
        (if (s.map.get index).action = .take then consumed s else relayed c s)) := by
  obtain ⟨-, htake, hcopy⟩ :=
    exec_edgeCell h c slice lane sense k fine lost (captureEntry_of_not_bypass hn hi)
  rcases ha : (s.map.get index).action with _ | _ | _
  · exact absurd ha hp
  · rw [htake ha]
    rfl
  · rw [hcopy ha]
    rfl

theorem ChanSettings.label_eq (g : ChanSettings) (sense : Sense) :
    g.label sense = if g.invert then (if sense = .rise then .fall else .rise) else sense := by
  rw [ChanSettings.label]
  cases sense <;> rfl

theorem levelOf_eq (label : Sense) : levelOf label = if label = .rise then .high else .low := by
  cases label <;> rfl

theorem ChanSense.passes_iff (k : ChanSense) (label : Sense) :
    k.passes label = true ↔ k = .both ∨ (k = .rise ∧ label = .rise) ∨ (k = .fall ∧ label = .fall) := by
  cases k <;> cases label <;> decide

/-- What the arrival of an EDGE cell leaves of the blocks that its path reads. -/
theorem entered_blocks (p : Prop) [Decidable p] (c : Cell) (s : State) :
    (if p then consumed s else relayed c s).channels = s.channels ∧
      (if p then consumed s else relayed c s).timebase = s.timebase ∧
      (if p then consumed s else relayed c s).tables = s.tables := by
  split <;> exact ⟨rfl, rfl, rfl⟩

/-- A status record set where the channels are still those of `s`. -/
theorem setStatus_eq {s t : State} (h : t.channels = s.channels) (c : Fin 16) (st : ChanStatus) :
    setStatus c st t =
      { t with channels := s.channels.set c { set := (s.channels.get c).set, status := st } } := by
  rw [setStatus, State.setChannel, h]

/-- Settles O25: the sense filter, then the verdict on the stamp, case by case. -/
theorem pathOfAnEdgeThroughItsChannel : Obligations.PathOfAnEdgeThroughItsChannel := by
  unfold Obligations.PathOfAnEdgeThroughItsChannel
  intro c slice lane sense k fine lost index s h hi hn hp
  rw [exec_edgeCell_channel h c sense k fine lost hi hn hp]
  obtain ⟨hchan, htime, htab⟩ := entered_blocks ((s.map.get index).action = .take) c s
  generalize (if (s.map.get index).action = .take then consumed s else relayed c s) = entered at *
  intro ch g hon label st fr stamp entered counted leaves passes
  have hx : entered.channels.get ch = s.channels.get ch := by rw [hchan]
  have hstamp : arrivalStamp entered g k fine = stamp := by
    rw [arrivalStamp, htime, htab, edgeStamp_eq]
  have hlabel : g.label sense = label := g.label_eq sense
  have henter : (s.channels.get ch).status.enter (g.label sense) lost = st := by
    rw [ChanStatus.enter, levelOf_eq, hlabel]
  have hpasses : g.sense.passes (g.label sense) = true ↔ passes := by
    rw [ChanSense.passes_iff, hlabel]
  have hcounted : counted.channels = s.channels := (calibrationTap_channels _ _ _).trans hchan
  have hcx : counted.channels.get ch = s.channels.get ch := by rw [hcounted]
  have hpassed : passes → channelEdge ch sense k fine lost entered =
      stampEdge ch (g.label sense) k fine lost entered (setStatus ch st counted) := fun hp =>
    channelEdge_passed hx hon (hpasses.mpr hp) henter
  refine ⟨fun hf => ?_, fun hp hl => ?_, fun hp hl => ?_, fun hp hl => ⟨fun hmore => ?_, fun hend => ?_⟩⟩
  · have hstop : g.sense.passes (g.label sense) = false := Bool.eq_false_iff.mpr (mt hpasses.mp hf)
    rw [channelEdge_filtered hx hon hstop, henter, setStatus_eq hchan]
  · obtain ⟨l, hlast, hlate⟩ := hl
    rw [hpassed hp, stampEdge_orderFault hcx (judgeStamp_orderFault hlast (by rw [hstamp]; exact hlate)),
      setStatus_eq hcounted]
  · obtain ⟨l, hlast, hlater, hhold⟩ := hl
    rw [hpassed hp, stampEdge_stopped hcx
      (judgeStamp_suppressed hlast (by rw [hstamp]; exact hlater) (by rw [hstamp]; exact hhold)) (.inl rfl),
      setStatus_eq hcounted]
  · have hj := judgeStamp_accepted hl
    rw [if_neg (Nat.not_le.mpr hmore), ← hstamp] at hj
    rw [hpassed hp, stampEdge_stopped hcx hj (.inr rfl), setStatus_eq hcounted, hstamp]
  · have hj := judgeStamp_accepted hl
    rw [if_pos hend, ← hstamp] at hj
    rw [hpassed hp, stampEdge_qualified hcx hj, setStatus_eq hcounted, hstamp, qualifiedEdge, hlabel,
      hstamp, htime, htab]
    rfl

end Sys2Proof.Machine
end

section
/-!
SUPPORT. The Ordering Queue (chapter 6): arrivals, forced releases and what one release does.
-/

namespace Sys2Proof.Machine

/-! ## The enables of the attentions -/

/-- The enables are those of `s` (R169): no event of a block sets one. -/
def SameEnables (s t : State) : Prop :=
  ∀ k, (t.command.attns.get k).enable = (s.command.attns.get k).enable

theorem SameEnables.trans {a b c : State} (h : SameEnables a b) (k : SameEnables b c) :
    SameEnables a c := fun n => (k n).trans (h n)

theorem Attn.raise_enable (a : Attn) (d : List Field) : (a.raise d).enable = a.enable := by
  rw [Attn.raise]
  split <;> rfl

theorem raise_enables (k : AttnKind) (d : List Field) (s : State) : SameEnables s (raise k d s) := by
  intro n
  rw [raise_attns, Bank.get_set]
  split
  · rename_i h
    rw [h, Attn.raise_enable]
  · rfl

theorem appendRecord_enables (r : QueueRecord) (s : State) : SameEnables s (appendRecord r s) := by
  unfold appendRecord
  dsimp only
  split
  · exact fun n => raise_enables .high _
      { s with results := { s.results with records := s.results.records ++ [r] } } n
  · exact fun _ => rfl

theorem dropRecord_enables (s : State) : SameEnables s (dropRecord s) := fun n =>
  raise_enables .gap _ { s with results := _ } n

theorem appendGap_enables (s : State) : SameEnables s (appendGap s) := fun n =>
  appendRecord_enables _ { s with results := { s.results with gaps := 0, gapLimit := false } } n

theorem offer_enables (r : QueueRecord) (s : State) : SameEnables s (offer r s) := by
  unfold offer
  dsimp only
  split
  · split
    · exact appendRecord_enables r s
    · exact dropRecord_enables s
  · split
    · exact (appendGap_enables s).trans (appendRecord_enables r _)
    · split
      · exact (appendGap_enables s).trans (dropRecord_enables _)
      · exact dropRecord_enables s

theorem Moves.enables {s t : State} (h : Moves s t) : SameEnables s t := by
  induction h with
  | refl => exact fun _ => rfl
  | raise k d _ ih => exact ih.trans (raise_enables k d _)
  | offer r _ ih => exact ih.trans (offer_enables r _)
  | slot _ _ _ _ ih => exact ih
  | flag _ _ _ ih => exact ih
  | markers _ _ ih => exact ih
  | mark _ _ ih => exact ih
  | entries _ _ _ ih => exact ih
  | choices _ _ ih => exact ih

/-- A raise whose enable is on sets the flag with its detail (R169). -/
theorem raise_flag {k : AttnKind} {s : State} (h : (s.command.attns.get k.code).enable = true)
    (d : List Field) :
    ((raise k d s).command.attns.get k.code).flag = true ∧
      ((raise k d s).command.attns.get k.code).detail = d := by
  rw [raise_attns, Bank.get_set_self, Attn.raise, if_pos h]
  exact ⟨rfl, rfl⟩

/-! ## Arrival -/

/-- An edge is inserted behind every entry up to the first that it stands before (R76, R79). -/
theorem insertEdge_split (e : Edge) (es : List Edge) :
    ∃ before after : List Edge, es = before ++ after ∧
      (∀ x ∈ before, beforeInQueue e x = false) ∧
      (∀ x, after.head? = some x → beforeInQueue e x = true) ∧
      insertEdge e es = before ++ e :: after := by
  induction es with
  | nil => exact ⟨[], [], rfl, nofun, nofun, rfl⟩
  | cons a es ih =>
    by_cases h : beforeInQueue e a = true
    · refine ⟨[], a :: es, rfl, nofun, fun x hx => ?_, if_pos h⟩
      cases hx
      exact h
    · obtain ⟨before, after, hes, hbefore, hafter, hins⟩ := ih
      refine ⟨a :: before, after, by rw [hes]; rfl, fun x hx => ?_, hafter, ?_⟩
      · rcases List.mem_cons.mp hx with rfl | hx
        · exact Bool.eq_false_iff.mpr h
        · exact hbefore x hx
      · rw [insertEdge, if_neg h, hins]
        rfl

theorem arrive_late {e : Edge} {s : State} (h : later e.stamp s.queue.mark = false) :
    arrive e s = dropLate e s := by
  rw [arrive, notLater, h]
  rfl

theorem arrive_held {e : Edge} {s : State} (h : later e.stamp s.queue.mark = true)
    (hroom : s.queue.entries.length < 256) :
    arrive e s = { s with queue := { s.queue with entries := insertEdge e s.queue.entries } } := by
  rw [arrive, notLater, h]
  exact if_pos hroom

theorem arrive_forced {e : Edge} {s : State} (h : later e.stamp s.queue.mark = true)
    (hfull : s.queue.entries.length = 256) : arrive e s = forcedRelease e s := by
  rw [arrive, notLater, h]
  have hno : ¬ s.queue.entries.length < Config.queueEntries := by
    rw [hfull]
    decide
  exact if_neg hno

/-- Stamps that are all the first one move W once (R80, R82). -/
theorem foldl_mark_same (f w : Stamp) (xs : List Stamp) (h : ∀ x ∈ xs, x = f) :
    (f :: xs).foldl (fun w x => if later x w then x else w) w = if later f w then f else w := by
  have hstay : ∀ ys : List Stamp, (∀ x ∈ ys, x = f) → ∀ m, later f m = false →
      ys.foldl (fun w x => if later x w then x else w) m = m := by
    intro ys hys m hm
    induction ys with
    | nil => rfl
    | cons y ys ih =>
      obtain rfl := hys y (by simp)
      rw [List.foldl_cons, hm]
      exact ih fun x hx => hys x (by simp [hx])
  refine hstay xs h _ ?_
  dsimp only
  split
  · exact later_self f
  · rename_i hn
    exact Bool.eq_false_iff.mpr hn

/-- The flags that a running slot records (R78, R80). -/
theorem recordFlag_slot {w : Slot → Bool} {f : RunFlags → RunFlags} {s : State} {i : Fin 8} :
    (recordFlag w f s).slots.get i =
      if (s.slots.get i).state ≠ .idle ∧ w (s.slots.get i) = true then
        (s.slots.get i).withFlags f
      else s.slots.get i := by
  rw [recordFlag_get]
  exact if_congr (by simp) rfl rfl

/-- A forced release: the releases, then REORDER and its flag in every running slot (R80). -/
theorem forcedRelease_eq {e first : Edge} {others : List Edge} {s : State}
    (h : insertEdge e s.queue.entries = first :: others) :
    forcedRelease e s =
      recordFlag (fun _ => true) (fun f => { f with reorder := true })
        (raise .reorder [num 4 first.channel]
          ((first :: others.takeWhile fun x => x.stamp == first.stamp).foldl release
            { s with
              queue :=
                { s.queue with
                  entries := others.dropWhile fun x => x.stamp == first.stamp } })) := by
  rw [forcedRelease, h]

/-- A DIVIDER marker's toggle by the width rule (R147, R151). -/
theorem Marker.ask_eq (now : Nat) (r : Bool) (m : Marker) :
    m.ask now r =
      if (if r = m.invert then PinLevel.low else .high) = m.pin then
        { m with request := r, resetHold := none }
      else if m.holdUntil ≤ now then
        { m with
          request := r, pin := if r = m.invert then .low else .high, lastTransition := now
          resetHold := none }
      else { m with request := r } := by
  have hwanted : ({ m with request := r } : Marker).wanted =
      if r = m.invert then PinLevel.low else .high := by
    rw [Marker.wanted]
    dsimp only
    cases r <;> cases m.invert <;> rfl
  rw [Marker.ask, Marker.act, hwanted]
  rfl

theorem Marker.toggle_eq (now : Nat) (m : Marker) :
    m.ask now (!m.request) =
      if (if m.request = m.invert then PinLevel.high else .low) = m.pin then
        { m with request := !m.request, resetHold := none }
      else if m.holdUntil ≤ now then
        { m with
          request := !m.request, pin := if m.request = m.invert then .high else .low
          lastTransition := now, resetHold := none }
      else { m with request := !m.request } := by
  have hlevel : (if (!m.request) = m.invert then PinLevel.low else .high) =
      if m.request = m.invert then PinLevel.high else .low := by
    cases m.request <;> cases m.invert <;> rfl
  rw [Marker.ask_eq, hlevel]

theorem Edge.stampRecord_eq (e : Edge) :
    e.stampRecord = .stamp e.channel e.sense e.marks (BitVec.ofNat 56 e.stamp.toNat) := by
  rw [Edge.stampRecord, BitVec.ofNat_toNat]

/-- What stands of a release before the DIVIDER markers (R82, R83, R135). -/
def delivered (s : State) (e : Edge) : State :=
  (List.finRange 8).foldl (deliverTo e)
    (if (s.channels.get e.channel).set.stream = true then offer e.stampRecord (moveMark e.stamp s)
    else moveMark e.stamp s)

theorem release_eq (s : State) (e : Edge) :
    release s e = toggleDividers e.channel (delivered s e) := by
  have hchan : (moveMark e.stamp s).channels = s.channels := (moveMark_moves _ _).same.channels
  rw [release, deliverEdge, hchan]
  rfl

theorem delivered_markerTime (s : State) (e : Edge) : (delivered s e).markerTime = s.markerTime := by
  rw [← (release_moves s e).same.markerTime, release_eq, toggleDividers_markerTime]

/-- Where W stands after the releases of the first candidate and of those with its stamp (R80, R82). -/
theorem foldl_release_same_mark (first : Edge) (others : List Edge) (s : State) :
    ((first :: others.takeWhile fun x => x.stamp == first.stamp).foldl release s).queue.mark =
      if later first.stamp s.queue.mark then first.stamp else s.queue.mark := by
  rw [foldl_release_mark_eq, List.map_cons]
  refine foldl_mark_same _ _ _ fun x hx => ?_
  obtain ⟨y, hy, rfl⟩ := List.mem_map.mp hx
  have hsame := List.mem_takeWhile_imp (p := fun x : Edge => x.stamp == first.stamp) hy
  exact eq_of_beq hsame

theorem later_ite_self (f w : Stamp) : later f (if later f w then f else w) = false := by
  split
  · exact later_self f
  · rename_i h
    exact Bool.eq_false_iff.mpr h

/-- The first candidate is released with those that have its stamp; at most 256 entries are kept (R80). -/
theorem forcedRelease_parts {e first : Edge} {others : List Edge} {s : State}
    (hins : insertEdge e s.queue.entries = first :: others) (hfull : s.queue.entries.length = 256) :
    (forcedRelease e s).queue.entries = (others.dropWhile fun x => x.stamp == first.stamp) ∧
      (forcedRelease e s).queue.entries.length ≤ 256 ∧
      (forcedRelease e s).queue.mark =
        if later first.stamp s.queue.mark then first.stamp else s.queue.mark := by
  have hlen : others.length = 256 := by
    have := insertEdge_length e s.queue.entries
    rw [hins, List.length_cons] at this
    omega
  have hentries : (forcedRelease e s).queue.entries =
      others.dropWhile fun x => x.stamp == first.stamp := by
    rw [forcedRelease_queue hins, foldl_release_entries]
  refine ⟨hentries, ?_, ?_⟩
  · rw [hentries, ← hlen]
    exact List.length_dropWhile_le _ _
  · rw [forcedRelease_queue hins, foldl_release_same_mark]

/-- What REORDER and its flags leave of the state behind the releases (R80). -/
theorem reordered_parts (after : State) (c : Fin 16) :
    let t := recordFlag (fun _ => true) (fun f => { f with reorder := true })
      (raise .reorder [num 4 c] after)
    t.command = (raise .reorder [num 4 c] after).command ∧ t.results = after.results ∧
      t.markers = after.markers ∧
      (∀ i, t.slots.get i =
        if (after.slots.get i).state ≠ .idle then
          (after.slots.get i).withFlags fun f => { f with reorder := true }
        else after.slots.get i) ∧
      ∀ i, (t.slots.get i).state ≠ .idle → (t.slots.get i).run.flags.reorder = true := by
  intro t
  have hslots : ∀ i, t.slots.get i =
      if (after.slots.get i).state ≠ .idle then
        (after.slots.get i).withFlags fun f => { f with reorder := true }
      else after.slots.get i := fun i => by
    rw [recordFlag_slot, raise_slots]
    exact if_congr (and_iff_left rfl) rfl rfl
  refine ⟨rfl, rfl, rfl, hslots, fun i hi => ?_⟩
  rw [hslots] at hi ⊢
  split at hi
  · rename_i hrun
    rw [if_pos hrun]
    rfl
  · rename_i hidle
    exact absurd hi hidle

/-- The delivery of a released edge to one slot, as slot event and settling (R83, R92). -/
theorem deliverTo_eq (e : Edge) (s : State) (i : Fin 8) :
    deliverTo e s i =
      if (s.slots.get i).references e.channel = true then
        settleSlot (applySlot i ((s.slots.get i).deliver i s.plan e) s) i
      else s := rfl

theorem toggleDividers_get (c : Fin 16) (s : State) (k : Fin 4) :
    (toggleDividers c s).markers.get k =
      if (s.markers.get k).source = .divider c then
        (s.markers.get k).ask s.markerTime (!(s.markers.get k).request)
      else s.markers.get k := Bank.get_map _ _ _

theorem toggleDividers_frame (c : Fin 16) (s : State) :
    toggleDividers c s = { s with markers := (toggleDividers c s).markers } := rfl

/-- Settles O27: an arrival that is late, held or forces a release, and the parts of a release in their order. -/
theorem arrivalAtTheOrderingQueue : Obligations.ArrivalAtTheOrderingQueue := by
  unfold Obligations.ArrivalAtTheOrderingQueue
  refine ⟨fun e s => ⟨fun hlate => ?_, fun hlater hroom => ?_, fun hlater hfull => ?_⟩,
    fun e s => ⟨fun h => ?_, fun h => ?_, release_mark_eq s e, ?_, fun k => ?_⟩⟩
  · rw [arrive_late hlate]
    exact ⟨rfl, rfl, rfl, fun i => recordFlag_slot⟩
  · obtain ⟨before, after, hes, hbefore, hafter, hins⟩ := insertEdge_split e s.queue.entries
    exact ⟨before, after, hes, hbefore, hafter, by rw [arrive_held hlater hroom, hins]⟩
  · match hins : insertEdge e s.queue.entries with
    | [] =>
      have := insertEdge_length e s.queue.entries
      rw [hins] at this
      cases this
    | first :: others =>
      refine ⟨first, others, rfl, ?_⟩
      obtain ⟨hentries, hlen, hmark⟩ := forcedRelease_parts hins hfull
      have hkept : (others.dropWhile fun x => x.stamp == first.stamp).length ≤ 256 := by
        rwa [← hentries]
      rw [arrive_forced hlater hfull]
      intro out kept after
      have heq : forcedRelease e s = recordFlag (fun _ => true) (fun f => { f with reorder := true })
          (raise .reorder [num 4 first.channel] after) := forcedRelease_eq hins
      have henable : SameEnables s after :=
        ((Moves.refl.entries _ (.inl hkept)).trans (Moves.foldl release_moves _ _)).enables
      obtain ⟨hcommand, hresults, hmarkers, hslots, hflags⟩ := reordered_parts after first.channel
      rw [← heq] at hcommand hresults hmarkers hslots hflags
      refine ⟨hentries, hlen, ?_, hmark, hcommand, fun hon => ?_, hresults, hmarkers, hslots, hflags⟩
      · rw [hmark]
        exact later_ite_self _ _
      · rw [hcommand]
        exact raise_flag ((henable AttnKind.reorder.code).trans hon) _
  · rw [moveMark, if_neg (by rw [h]; decide)]
  · rw [moveMark, if_pos h]
    rfl
  · rw [release_eq, ← Edge.stampRecord_eq]
    exact toggleDividers_frame _ _
  · rw [release_eq, toggleDividers_get, Marker.toggle_eq, delivered_markerTime, ← Edge.stampRecord_eq]
    rfl

end Sys2Proof.Machine
end

section
/-!
SUPPORT. The end of a coarse period and the step of the count (chapter 1).
-/

namespace Sys2Proof.Machine

/-! ## The ends of updates and of a calibration -/

/-- `t` differs from `s` in what the ends of updates and of a calibration touch alone. -/
def PeriodFrame (s t : State) : Prop :=
  ∃ tables cal attns notices choices, t =
    { s with
      tables := tables, cal := cal, choices := choices
      command := { s.command with attns := attns, notices := notices } }

theorem PeriodFrame.refl (s : State) : PeriodFrame s s := ⟨_, _, _, _, _, rfl⟩

theorem PeriodFrame.trans {a b c : State} (h : PeriodFrame a b) (k : PeriodFrame b c) :
    PeriodFrame a c := by
  obtain ⟨_, _, _, _, _, rfl⟩ := h
  obtain ⟨_, _, _, _, _, rfl⟩ := k
  exact ⟨_, _, _, _, _, rfl⟩

theorem takePeriodEvent_frame (e : PeriodEvent) (s : State) : PeriodFrame s (takePeriodEvent e s) := by
  unfold takePeriodEvent
  split
  · split
    · exact ⟨_, _, _, _, _, rfl⟩
    · exact .refl s
  · exact ⟨_, _, _, _, _, rfl⟩

theorem takePeriodEvents_frame (fuel : Nat) (es : List PeriodEvent) (s : State) :
    PeriodFrame s (takePeriodEvents fuel es s) := by
  induction fuel generalizing es s with
  | zero => exact .refl s
  | succ fuel ih =>
    rw [takePeriodEvents]
    split
    · exact .refl s
    · rename_i e others n _
      have hchoice : PeriodFrame s { s with choices := n } := ⟨_, _, _, _, _, rfl⟩
      exact (hchoice.trans (takePeriodEvent_frame _ _)).trans (ih _ _)

/-- The calibration is left as it was, or its time limit was due and it has ended (R66). -/
theorem takePeriodEvents_cal (fuel : Nat) (es : List PeriodEvent) (s : State) :
    (takePeriodEvents fuel es s).cal = s.cal ∨
      (PeriodEvent.calTimeout ∈ es ∧ (takePeriodEvents fuel es s).cal.active = false) := by
  induction fuel generalizing es s with
  | zero => exact .inl rfl
  | succ fuel ih =>
    rw [takePeriodEvents]
    split
    · exact .inl rfl
    · rename_i e others n hc
      obtain ⟨he, hothers⟩ := choose_mem hc
      have hrest := ih others (takePeriodEvent e { s with choices := n })
      cases e with
      | updateEnd t =>
        have hsame : (takePeriodEvent (.updateEnd t) { s with choices := n }).cal = s.cal := by
          unfold takePeriodEvent
          dsimp only
          split <;> rfl
        rw [hsame] at hrest
        exact hrest.imp_right fun h => ⟨hothers _ h.1, h.2⟩
      | calTimeout =>
        refine .inr ⟨he, ?_⟩
        rcases hrest with h | h
        · rw [h]
          rfl
        · exact h.2

/-! ## The markers at the end of a period -/

/-- `t` differs from `s` in the markers and the number of free choices alone. -/
def MarkerFrame (s t : State) : Prop := ∃ markers choices, t = { s with markers := markers, choices := choices }

theorem settleMarker_frame (s : State) (i : Fin 4) : MarkerFrame s (settleMarker s i) := by
  unfold settleMarker
  dsimp only
  split
  · exact ⟨_, _, rfl⟩
  · exact ⟨_, _, rfl⟩

theorem foldl_settleMarker_frame (is : List (Fin 4)) (s : State) :
    MarkerFrame s (is.foldl settleMarker s) := by
  induction is generalizing s with
  | nil => exact ⟨_, _, rfl⟩
  | cons i is ih =>
    obtain ⟨_, _, h⟩ := settleMarker_frame s i
    obtain ⟨_, _, hrest⟩ := ih (settleMarker s i)
    rw [List.foldl_cons, hrest, h]
    exact ⟨_, _, rfl⟩

theorem endMarkerPeriod_frame (s : State) :
    ∃ markers choices, endMarkerPeriod s =
      { s with markers := markers, choices := choices, markerTime := s.markerTime + 1 } := by
  obtain ⟨_, _, h⟩ := foldl_settleMarker_frame allMarkers s
  rw [endMarkerPeriod, h]
  exact ⟨_, _, rfl⟩

/-- The end of a period in all that its events and its markers leave alone. -/
theorem endMarkerPeriod_of_frame {a b : State} (h : PeriodFrame a b) :
    ∃ tables attns notices choices markers, endMarkerPeriod b =
      { a with
        tables := tables, cal := b.cal, choices := choices, markers := markers
        markerTime := a.markerTime + 1
        command := { a.command with attns := attns, notices := notices } } := by
  obtain ⟨_, _, _, _, _, rfl⟩ := h
  obtain ⟨_, _, hmarkers⟩ := endMarkerPeriod_frame _
  exact ⟨_, _, _, _, _, hmarkers⟩

/-- The calibration over the end of a period (R66). -/
theorem endPeriod_cal (s : State) :
    (endPeriod s).cal = (advanced s).cal ∨
      ((advanced s).cal.active = true ∧ (endPeriod s).cal.active = false) := by
  have hkeep : ∀ b, (endMarkerPeriod b).cal = b.cal := fun b => by
    obtain ⟨_, _, h⟩ := endMarkerPeriod_frame b
    rw [h]
  rw [endPeriod_eq, hkeep]
  refine (takePeriodEvents_cal _ _ _).imp_right fun h => ⟨?_, h.2⟩
  have hdue := h.1
  rw [periodEvents, List.mem_append] at hdue
  rcases hdue with hdue | hdue
  · simp at hdue
  · split at hdue
    · rename_i hlimit
      simp only [Bool.and_eq_true] at hlimit
      exact hlimit.1
    · cases hdue

theorem counted_same (s : State) :
    (counted s).queue = s.queue ∧ (counted s).timebase = { s.timebase with count := s.timebase.count + 1 } ∧
      (counted s).cal =
        { s.cal with elapsed := if s.cal.active then s.cal.elapsed + 1 else s.cal.elapsed } :=
  ⟨rfl, rfl, rfl⟩

/-- The cycle's mark moves to one of the stamps or stays (R77). -/
theorem foldl_mark_mem (xs : List Stamp) (w : Stamp) :
    xs.foldl (fun w x => if later x w then x else w) w = w ∨
      xs.foldl (fun w x => if later x w then x else w) w ∈ xs := by
  induction xs generalizing w with
  | nil => exact .inl rfl
  | cons x xs ih =>
    rw [List.foldl_cons]
    split
    · exact .inr ((ih x).elim (fun h => by rw [h]; exact List.mem_cons_self)
        fun h => List.mem_cons_of_mem _ h)
    · exact (ih w).imp_right fun h => List.mem_cons_of_mem _ h

/-- Of two stamps later than `w`, one that is not later than the other is it or is earlier. -/
theorem later_of_not_later {w x f : Stamp} (hx : later x w = true) (hf : later f w = true)
    (h : later x f = false) : x = f ∨ later f x = true := by
  rw [later_iff] at hx hf
  rcases Nat.lt_trichotomy (aheadOf w x) (aheadOf w f) with hlt | heq | hgt
  · refine .inr (later_iff.mpr ?_)
    rw [aheadOf_of_le hlt.le]
    omega
  · exact .inl (aheadOf_inj.mp heq)
  · have hlater : later x f = true := by
      rw [later_iff, aheadOf_of_le hgt.le]
      omega
    cases h.symm.trans hlater

/-- Over a frontier advance W moves to a frontier that is later than it (R77, R81). -/
theorem frontierAdvance_mark_of_later {f : Stamp} {s : State}
    (hlater : ∀ e ∈ s.queue.entries, later e.stamp s.queue.mark = true)
    (hf : later f s.queue.mark = true) : (frontierAdvance f s).queue.mark = f := by
  rw [frontierAdvance_mark_eq, List.foldl_append]
  rcases foldl_mark_mem
    ((s.queue.entries.takeWhile fun e => !later e.stamp f).map (·.stamp)) s.queue.mark with h | h
  · rw [h]
    exact if_pos hf
  · obtain ⟨e, he, hstamp⟩ := List.mem_map.mp h
    rw [← hstamp]
    have hnot : later e.stamp f = false := by
      simpa using List.mem_takeWhile_imp he
    rcases later_of_not_later (hlater e (List.takeWhile_subset _ he)) hf hnot with heq | hl
    · rw [heq]
      exact ite_self _
    · exact if_pos hl

/-- W stays over a frontier advance that releases nothing and does not pass it (R77, R81). -/
theorem frontierAdvance_mark_of_not_later {f : Stamp} {s : State}
    (hlater : ∀ e ∈ s.queue.entries, later e.stamp f = true)
    (hf : later f s.queue.mark = false) : (frontierAdvance f s).queue.mark = s.queue.mark := by
  have hnone : (s.queue.entries.takeWhile fun e => !later e.stamp f) = [] := by
    match hes : s.queue.entries with
    | [] => rfl
    | e :: es =>
      have he := hlater e (by simp [hes])
      rw [List.takeWhile_cons, he]
      rfl
  rw [frontierAdvance_mark_eq, hnone]
  exact if_neg (by rw [hf]; decide)

/-- Settles O20: what the advance of the frontier leaves, and the frame of the events behind it. -/
theorem periodEndAdvancesCountAndFrontier : Obligations.PeriodEndAdvancesCountAndFrontier := by
  unfold Obligations.PeriodEndAdvancesCountAndFrontier
  intro s hheld
  have hexec : exec .timebaseAdvance s = .next (endPeriod s) := by
    change execTimebaseAdvance s = _
    rw [execTimebaseAdvance, if_neg (by rw [hheld]; decide)]
  have hcal := endPeriod_cal s
  have hsame := (advanced_runs s).moves.same
  obtain ⟨_, _, _, _, _, h⟩ := endMarkerPeriod_of_frame (takePeriodEvents_frame
    (periodEvents (advanced s)).length (periodEvents (advanced s)) (advanced s))
  rw [← endPeriod_eq] at h
  refine ⟨_, hexec, ?_, ?_, ?_, fun ha ht => ?_, fun ha => ?_, ?_⟩
  · rw [h]
    exact hsame.timebase
  · rw [h]
    exact congrArg (· + 1) hsame.markerTime
  · have htime : (endPeriod s).timebase = (counted s).timebase := by
      rw [h]
      exact hsame.timebase
    have hqueue : (endPeriod s).queue = (advanced s).queue := by rw [h]
    have hslots : (endPeriod s).slots = (advanced s).slots := by rw [h]
    have hresults : (endPeriod s).results = (advanced s).results := by rw [h]
    rw [htime, hqueue]
    exact ⟨frontierAdvance_entries _ _, frontierAdvance_mark_eq _ _, frontierAdvance_mark _ _,
      frontierAdvance_mark_of_later (s := counted s), frontierAdvance_mark_of_not_later (s := counted s),
      hslots, hresults⟩
  · rw [hsame.cal] at hcal
    rcases hcal with hcal | hcal
    · rw [hcal, (counted_same s).2.2, ha]
      rfl
    · cases ht.symm.trans hcal.2
  · rw [hsame.cal] at hcal
    rcases hcal with hcal | hcal
    · rw [hcal, (counted_same s).2.2, ha]
      rfl
    · cases ha.symm.trans hcal.1
  · rw [h]
    exact ⟨hsame.pending, hsame.held, hsame.link, hsame.node, hsame.map, hsame.channels, hsame.plan,
      hsame.replies, hsame.load, hsame.mute⟩

end Sys2Proof.Machine
end

section
/-!
SUPPORT. The step of the count (R11): the slots that end, the records that are offered and the markers.
-/

namespace Sys2Proof.Machine

/-! ## What an offer makes of the results -/

/-- The results over a raise, an append or a drop depend on the results alone (R138 to R140). -/
theorem appendRecord_results_congr {u v : State} (h : u.results = v.results) (r : QueueRecord) :
    (appendRecord r u).results = (appendRecord r v).results := by
  rw [appendRecord_results, appendRecord_results, h]

theorem dropRecord_results_congr {u v : State} (h : u.results = v.results) :
    (dropRecord u).results = (dropRecord v).results := by
  simp only [dropRecord, raise_results, h]

theorem appendGap_results_congr {u v : State} (h : u.results = v.results) :
    (appendGap u).results = (appendGap v).results := by
  rw [appendGap, appendGap, h]
  exact appendRecord_results_congr (u := { u with results := _ }) (v := { v with results := _ }) rfl _

theorem offer_results_congr {u v : State} (h : u.results = v.results) (r : QueueRecord) :
    (offer r u).results = (offer r v).results := by
  unfold offer
  rw [h]
  dsimp only
  split
  · split
    · exact appendRecord_results_congr h r
    · exact dropRecord_results_congr h
  · split
    · exact appendRecord_results_congr (appendGap_results_congr h) r
    · split
      · exact dropRecord_results_congr (appendGap_results_congr h)
      · exact dropRecord_results_congr h

/-! ## A slot on the step -/

/-- The record of a slot that ends on the step (R109, R112, R130). -/
def epochRecord (i : Fin 8) (x : Slot) : Record :=
  { slot := i, gateIndex := x.run.gateIndex, seq := x.seq, values := false
    flags :=
      { x.run.flags with
        epochStep := true
        saturated := x.run.flags.saturated || decide (x.run.gateIndex = 2 ^ 32 - 1) }
    body := zeroBody x }

theorem Slot.emptyBody_eq (x : Slot) : x.emptyBody = zeroBody x := rfl

theorem Slot.epochEnd_of_idle {x : Slot} (h : x.state = .idle) (i : Fin 8) :
    x.epochEnd i = (x, []) := if_pos h

theorem Slot.epochEnd_of_running {x : Slot} (h : x.state ≠ .idle) (i : Fin 8) :
    x.epochEnd i =
      ({ x with
          state := .idle, seq := x.seq + 1, retained := some (epochRecord i x)
          run :=
            { Run.empty with
              gateIndex := min (2 ^ 32 - 1) (x.run.gateIndex + 1 + x.run.passed) } },
        [epochRecord i x]) := by
  rw [Slot.epochEnd, if_neg h, epochRecord, ← Slot.emptyBody_eq]
  rfl

/-! ## The sources of the markers -/

/-- The markers' sources are those of `s` (R148): no event of a slot sets one. -/
def SameSources (s t : State) : Prop :=
  ∀ m, (t.markers.get m).source = (s.markers.get m).source

theorem SameSources.trans {a b c : State} (h : SameSources a b) (k : SameSources b c) :
    SameSources a c := fun m => (k m).trans (h m)

theorem SameSources.of_markers {s t : State} (h : t.markers = s.markers) : SameSources s t :=
  fun m => by rw [h]

theorem Marker.act_source (now : Nat) (m : Marker) : (m.act now).source = m.source := by
  rw [m.act_frame now]

theorem SameSources.map {s t : State} {f : Marker → Marker} (h : t.markers = s.markers.map f)
    (hf : ∀ m, (f m).source = m.source) : SameSources s t := fun m => by
  rw [h, Bank.get_map, hf]

theorem signalDone_sources (i : Fin 8) (s : State) : SameSources s (signalDone i s) :=
  .map rfl fun m => by
    split
    · exact Marker.act_source _ _
    · rfl

theorem refreshSlotMarkers_sources (i : Fin 8) (s : State) :
    SameSources s (refreshSlotMarkers i s) :=
  .map rfl fun m => by
    split
    · exact Marker.act_source _ _
    · rfl

theorem publish_sources (report : Bool) (r : Record) (s : State) :
    SameSources s (publish report r s) := by
  have hoffer : SameSources s (if report then offer (.result r) s else s) := by
    split
    · exact .of_markers (offer_markers _ _)
    · exact fun _ => rfl
  exact hoffer.trans ((SameSources.of_markers rfl).trans (signalDone_sources _ _))

theorem foldl_sources {α : Type} {f : State → α → State} (hf : ∀ s a, SameSources s (f s a))
    (as : List α) (s : State) : SameSources s (as.foldl f s) := by
  induction as generalizing s with
  | nil => exact fun _ => rfl
  | cons a as ih => exact (hf s a).trans (ih (f s a))

theorem applySlot_sources (i : Fin 8) (out : SlotOut) (s : State) :
    SameSources s (applySlot i out s) := by
  have hset : SameSources s (s.setSlot i out.1) := .of_markers rfl
  exact (hset.trans (foldl_sources (fun s r => publish_sources _ r s) out.2 _)).trans
    (refreshSlotMarkers_sources i _)

/-! ## The slots on the step -/

/-- A slot event without a result touches no result (R109). -/
theorem applySlot_results_nil (i : Fin 8) (y : Slot) (s : State) :
    (applySlot i (y, []) s).results = s.results := rfl

/-- A slot event with one result offers its record where report is on (R109). -/
theorem applySlot_results_single (i : Fin 8) (y : Slot) (r : Record) (s : State) :
    (applySlot i (y, [r]) s).results =
      (if y.config.report then offer (.result r) s else s).results := by
  show (if y.config.report then offer (.result r) (s.setSlot i y) else s.setSlot i y).results = _
  split
  · exact offer_results_congr (u := s.setSlot i y) (v := s) rfl _
  · rfl

/-- One slot ends on the step, if it runs (R112). -/
def endSlot (s : State) (i : Fin 8) : State := applySlot i ((s.slots.get i).epochEnd i) s

theorem endSlotsOnStep_eq (s : State) : endSlotsOnStep s = allSlots.foldl endSlot s := rfl

theorem endSlot_slots (s : State) (i : Fin 8) :
    (endSlot s i).slots = s.slots.set i ((s.slots.get i).epochEnd i).1 := applySlot_slots _ _ _

theorem foldl_endSlot_get {is : List (Fin 8)} (hnodup : is.Nodup) (s : State) (j : Fin 8) :
    (is.foldl endSlot s).slots.get j =
      if j ∈ is then ((s.slots.get j).epochEnd j).1 else s.slots.get j := by
  induction is generalizing s with
  | nil => rfl
  | cons i is ih =>
    obtain ⟨hi, hnodup⟩ := List.nodup_cons.mp hnodup
    rw [List.foldl_cons, ih hnodup, endSlot_slots, Bank.get_set]
    by_cases hj : j = i
    · subst hj
      simp [hi]
    · simp [hj]

theorem endSlotsOnStep_get (s : State) (j : Fin 8) :
    (endSlotsOnStep s).slots.get j = ((s.slots.get j).epochEnd j).1 := by
  rw [endSlotsOnStep_eq, allSlots, foldl_endSlot_get (List.nodup_finRange 8),
    if_pos (List.mem_finRange j)]

/-- The record of a slot that ends on the step is offered where report is on. -/
def offerEpochRecord (x : Fin 8 → Slot) (s : State) (i : Fin 8) : State :=
  if (x i).state ≠ .idle ∧ (x i).config.report = true then
    offer (.result (epochRecord i (x i))) s
  else s

theorem endSlot_results (s : State) (i : Fin 8) :
    (endSlot s i).results = (offerEpochRecord s.slots.get s i).results := by
  rw [endSlot, offerEpochRecord]
  by_cases h : (s.slots.get i).state = .idle
  · rw [Slot.epochEnd_of_idle h, applySlot_results_nil, if_neg fun hn => hn.1 h]
  · rw [Slot.epochEnd_of_running h, applySlot_results_single]
    exact congrArg State.results (if_congr (and_iff_right h).symm rfl rfl)

theorem foldl_endSlot_results {is : List (Fin 8)} (hnodup : is.Nodup) (x : Fin 8 → Slot)
    {s u : State} (h : s.results = u.results) (hx : ∀ i ∈ is, s.slots.get i = x i) :
    (is.foldl endSlot s).results = (is.foldl (offerEpochRecord x) u).results := by
  induction is generalizing s u with
  | nil => exact h
  | cons i is ih =>
    obtain ⟨hi, hnodup⟩ := List.nodup_cons.mp hnodup
    refine ih hnodup ?_ fun j hj => ?_
    · rw [endSlot_results]
      have hxi := hx i List.mem_cons_self
      unfold offerEpochRecord
      rw [hxi]
      split
      · exact offer_results_congr h _
      · exact h
    · have hne : j ≠ i := fun e => hi (e ▸ hj)
      rw [endSlot_slots, Bank.get_set_ne _ _ hne]
      exact hx j (List.mem_cons_of_mem _ hj)

theorem endSlot_sources (s : State) (i : Fin 8) : SameSources s (endSlot s i) :=
  applySlot_sources _ _ _

/-! ## The step -/

/-- What follows the ends of the slots on the step (R11). -/
def stepLeaves (f : Stamp) (e : State) : State :=
  refreshTimebaseMarkers
    { e with
      channels := e.channels.map Channel.epochStep
      queue := { entries := [], mark := f } }

theorem stepActions_eq (s : State) :
    stepActions s = stepLeaves s.timebase.frontier (endSlotsOnStep s) := by
  have hleaves : ∀ (f : Stamp) (e : State),
      refreshTimebaseMarkers
        { discardQueue f e with channels := (discardQueue f e).channels.map Channel.epochStep } =
      stepLeaves f e := fun _ _ => rfl
  exact hleaves _ _

/-- A TIMEBASE marker takes its request from the count (R150). -/
theorem refreshTimebaseMarkers_follow {s : State} {m : Fin 4} {p : Nat}
    (h : (s.markers.get m).source = .timebase p) :
    ((refreshTimebaseMarkers s).markers.get m).source = .timebase p ∧
      ((refreshTimebaseMarkers s).markers.get m).request = timebaseRequest p s.timebase.count := by
  have hm : (refreshTimebaseMarkers s).markers.get m =
      (s.markers.get m).ask s.markerTime (timebaseRequest p s.timebase.count) := by
    rw [refreshTimebaseMarkers, Bank.get_map, h]
  rw [hm, Marker.ask, Marker.act_frame]
  exact ⟨h, rfl⟩

/-- An EPOCH cell that is no confirmation loads the count, and the step actions and EPOCH follow (R8 to R11). -/
theorem takeEpoch_of_step {s : State} {e : Coarse}
    (h : s.timebase.epoch = .unset ∨
      ¬ (-1 ≤ coarseDiff (s.timebase.target e) s.timebase.count ∧
        coarseDiff (s.timebase.target e) s.timebase.count ≤ 1)) :
    ∃ b : Timebase, takeEpoch e s =
        raise .epoch [num 1 (if s.timebase.epoch = .unset then 0 else 1)]
          (stepActions { s with timebase := b }) ∧
      b.count = s.timebase.target e ∧ b.epoch = .set ∧ b.trim = s.timebase.trim ∧
      b.horizon = s.timebase.horizon ∧
      (s.timebase.epoch = .unset → b.outcome = .loaded ∧ b.offset = 0) ∧
      (s.timebase.epoch = .set → b.outcome = .step ∧
        b.offset = max (-32768) (min 32767 (coarseDiff (s.timebase.target e) s.timebase.count))) := by
  cases hepoch : s.timebase.epoch with
  | unset =>
    exact ⟨_, takeEpoch_loads hepoch, rfl, rfl, rfl, rfl, fun _ => ⟨rfl, rfl⟩, nofun⟩
  | set =>
    have hout := h.resolve_left (by rw [hepoch]; decide)
    exact ⟨_, takeEpoch_steps hepoch hout, rfl, hepoch, rfl, rfl, nofun, fun _ => ⟨rfl, rfl⟩⟩

/-- Settles O21: the new count by its case, then what the ends of the slots and the step leave. -/
theorem epochCellsLoadOrStepTheCount : Obligations.EpochCellsLoadOrStepTheCount := by
  unfold Obligations.EpochCellsLoadOrStepTheCount
  intro c e s h hstep
  obtain ⟨b, htake, hcount, hepoch, htrim, hhorizon, hloaded, hstepped⟩ :=
    takeEpoch_of_step (s := relayed c s) hstep
  have hexec := exec_epochCell h c e
  rw [htake, stepActions_eq] at hexec
  have hmoves := endSlotsOnStep_moves { relayed c s with timebase := b }
  have hsame := hmoves.same
  have hslots := endSlotsOnStep_get { relayed c s with timebase := b }
  have hsources := foldl_sources endSlot_sources allSlots { relayed c s with timebase := b }
  rw [← endSlotsOnStep_eq] at hsources
  have henables := hmoves.enables
  have hresults : (endSlotsOnStep { relayed c s with timebase := b }).results =
      (allSlots.foldl (offerEpochRecord s.slots.get) s).results :=
    foldl_endSlot_results (List.nodup_finRange 8) s.slots.get rfl fun _ _ => rfl
  generalize endSlotsOnStep { relayed c s with timebase := b } = ended at *
  have htime : ended.timebase = b := hsame.timebase
  subst htime
  have hbase : (relayed c s).timebase = s.timebase := rfl
  rw [hbase] at hcount htrim hhorizon hloaded hstepped
  refine ⟨_, hexec, ?_, ?_, ?_, ?_, fun hu => ?_, fun hs => ?_, ?_, fun i => ⟨fun hi => ?_, fun hi => ?_⟩,
    fun n => ?_, fun hon => ?_, fun m p hm => ?_, ?_, hsame.link, hsame.pending, hsame.node, hsame.map,
    hsame.tables, hsame.cal, hsame.plan, hsame.markerTime, hsame.replies, hsame.load⟩
  · exact hcount
  · exact hepoch
  · exact htrim
  · exact hhorizon
  · exact hloaded hu
  · exact hstepped hs
  · rfl
  · refine (hslots i).trans ?_
    rw [Slot.epochEnd_of_idle (by exact hi)]
    rfl
  · refine (hslots i).trans ?_
    rw [Slot.epochEnd_of_running (by exact hi)]
    rfl
  · have hn : (ended.channels.map Channel.epochStep).get n = (s.channels.get n).epochStep := by
      rw [Bank.get_map, hsame.channels]
      rfl
    exact ⟨(congrArg Channel.set hn).trans rfl, (congrArg Channel.status hn).trans rfl⟩
  · exact raise_flag ((henables _).trans hon) _
  · have hfollow := refreshTimebaseMarkers_follow
      (s := { ended with
        channels := ended.channels.map Channel.epochStep
        queue := { entries := [], mark := ended.timebase.frontier } })
      ((hsources m).trans hm)
    refine ⟨hfollow.1, hfollow.2.trans ?_⟩
    rfl
  · refine hresults.trans ?_
    refine congrArg (fun f => ((List.finRange 8).foldl f s).results) (funext₂ fun u i => ?_)
    have hretained := congrArg Slot.retained (hslots i)
    by_cases hi : (s.slots.get i).state = .idle
    · rw [offerEpochRecord, if_neg fun hn => hn.1 hi, decide_eq_false (not_not.mpr hi), Bool.false_and]
    · rw [Slot.epochEnd_of_running (by exact hi)] at hretained
      rw [offerEpochRecord, decide_eq_true hi, Bool.true_and]
      cases hreport : (s.slots.get i).config.report
      · exact if_neg (by simp)
      · rw [if_pos ⟨hi, rfl⟩]
        generalize hr : Slot.retained _ = o
        obtain rfl : some (epochRecord i (s.slots.get i)) = o := hretained.symm.trans hr
        rfl

end Sys2Proof.Machine
end

section
/-!
SUPPORT. The load buffer and the commits of staged loads (R23 to R25, R53, R54, R115, R173, R175).
-/

namespace Sys2Proof.Machine

/-! ## LOAD-OPEN, LOAD-CANCEL and LOAD-COMMIT as rows -/

theorem exec_loadOpen {c : Cell} {s : State} (h : Takes s c) (a : LoadArg) (first count : Nat) :
    exec (.loadOpen c a first count) s =
      .next (replied c (loadOpen a first count (consumed s)).code
        (loadOpen a first count (consumed s)).fields (loadOpen a first count (consumed s)).state) := by
  change execLoadOpen c a first count s = _
  rw [execLoadOpen, takeCommand_keeps h rfl]

theorem exec_loadCommit {c : Cell} {s : State} (h : Takes s c) :
    exec (.loadCommit c) s =
      .next (replied c (loadCommit (consumed s)).code (loadCommit (consumed s)).fields
        (loadCommit (consumed s)).state) := by
  change execLoadCommit c s = _
  rw [execLoadCommit, takeCommand_keeps h rfl]

section LoadOpen
variable {a : LoadArg} {t : LoadTarget} {first count : Nat} {s : State}

theorem loadOpen_of_no_target (h : loadTargetOf a = none) :
    loadOpen a first count s = .still s .range := by
  rw [loadOpen, h]

theorem loadOpen_of_range (ht : loadTargetOf a = some t)
    (h : count = 0 ∨ t.extent < first + count ∨ 64 < count * t.entryWords) :
    loadOpen a first count s = .still s .range := by
  rw [loadOpen, ht]
  exact if_pos h

theorem loadOpen_of_busy (ht : loadTargetOf a = some t) (h0 : 1 ≤ count)
    (h1 : first + count ≤ t.extent) (h2 : count * t.entryWords ≤ 64)
    (h : s.command.load.phase ≠ .empty ∨ targetForbidden s t = true) :
    loadOpen a first count s = .still s .busy := by
  have hin : ¬ (count = 0 ∨ t.extent < first + count ∨ Config.loadWords < count * t.entryWords) := by
    rw [Config.loadWords]
    omega
  rw [loadOpen, ht]
  dsimp only
  rw [if_neg hin]
  by_cases hphase : s.command.load.phase = .empty
  · rw [if_neg (not_not.mpr hphase), if_pos (h.resolve_left (not_not.mpr hphase))]
  · rw [if_pos hphase]

theorem loadOpen_opens (ht : loadTargetOf a = some t) (h0 : 1 ≤ count)
    (h1 : first + count ≤ t.extent) (h2 : count * t.entryWords ≤ 64)
    (hphase : s.command.load.phase = .empty) (hfree : targetForbidden s t = false) :
    loadOpen a first count s =
      ⟨{ s with
          command :=
            { s.command with
              load :=
                { phase := .opened, target := t, first := first, count := count
                  expected := count * t.entryWords, words := [] } } }, .done, []⟩ := by
  have hin : ¬ (count = 0 ∨ t.extent < first + count ∨ Config.loadWords < count * t.entryWords) := by
    rw [Config.loadWords]
    omega
  rw [loadOpen, ht]
  dsimp only
  rw [if_neg hin, if_neg (not_not.mpr hphase), if_neg (by rw [hfree]; decide)]

end LoadOpen

theorem LoadTarget.extent_eq (t : LoadTarget) :
    t.extent = if t = .plan then 64 else if t = .map then 128 else 256 := by
  cases t <;> rfl

theorem LoadTarget.entryWords_eq (t : LoadTarget) : t.entryWords = if t = .plan then 3 else 1 := by
  cases t <;> rfl

/-- A LIN target is forbidden where its table is claimed (R57). -/
theorem targetForbidden_iff (s : State) (t : LoadTarget) :
    targetForbidden s t = true ↔ ∃ n, t = .lin n ∧ ¬ TableUnclaimed s n := by
  have hlin : ∀ n, loadForbidden s n = true ↔ ¬ TableUnclaimed s n := fun n => by
    rw [loadForbidden, TableUnclaimed]
    cases (s.tables.get n).isUpdating <;> simp
  cases t with
  | lin n =>
    refine (hlin n).trans ⟨fun h => ⟨n, rfl, h⟩, ?_⟩
    rintro ⟨m, hm, h⟩
    cases hm
    exact h
  | map => exact ⟨nofun, nofun⟩
  | plan => exact ⟨nofun, nofun⟩

/-- Settles O30: LOAD-OPEN's checks in their order, and the buffer emptied. -/
theorem loadBufferOpensAndEmpties : Obligations.LoadBufferOpensAndEmpties := by
  unfold Obligations.LoadBufferOpensAndEmpties
  refine fun c s h => ⟨fun a first count ha => ?_, fun a t first count ha => ?_, ?_, fun hphase => ?_⟩
  · have hnone : loadTargetOf a = none := by
      rcases ha with ⟨n, rfl, hn⟩ | ⟨n, rfl⟩
      · rw [loadTargetOf, inRange_of_le hn]
        rfl
      · rfl
    rw [exec_loadOpen h, loadOpen_of_no_target hnone]
    rfl
  · have ht : loadTargetOf a = some t := by
      rcases ha with ⟨n, rfl, rfl⟩ | ⟨rfl, rfl⟩ | ⟨rfl, rfl⟩
      · rw [loadTargetOf, inRange_val]
        rfl
      · rfl
      · rfl
    rw [← LoadTarget.extent_eq, ← LoadTarget.entryWords_eq, exec_loadOpen h]
    refine ⟨fun hrange => ?_, fun h0 h1 h2 => ⟨fun hbusy => ?_, fun hphase hfree => ?_⟩⟩
    · rw [loadOpen_of_range ht hrange]
      rfl
    · rw [← targetForbidden_iff] at hbusy
      rw [loadOpen_of_busy (s := consumed s) ht h0 h1 h2 hbusy]
      rfl
    · have hallowed : targetForbidden s t = false := by
        rw [← Bool.not_eq_true, targetForbidden_iff]
        rintro ⟨n, hn, hclaimed⟩
        exact hclaimed (hfree n hn)
      rw [loadOpen_opens (s := consumed s) ht h0 h1 h2 hphase hallowed]
      rfl
  · change execLoadCancel c s = _
    rw [execLoadCancel, takeCommand_keeps h rfl]
    rfl
  · rw [exec_loadCommit h, loadCommit, if_neg (by exact hphase)]
    rfl

/-! ## The MAP commit -/

theorem loadCommit_map {s : State} (hfull : s.command.load.phase = .full)
    (ht : s.command.load.target = .map) : loadCommit s = commitMap s.command.load s := by
  rw [loadCommit, if_pos hfull, ht]

theorem loadCommit_lin {s : State} {t : Fin 8} (hfull : s.command.load.phase = .full)
    (ht : s.command.load.target = .lin t) : loadCommit s = commitTable t s.command.load s := by
  rw [loadCommit, if_pos hfull, ht]

theorem loadCommit_plan {s : State} (hfull : s.command.load.phase = .full)
    (ht : s.command.load.target = .plan) : loadCommit s = commitPlan s.command.load s := by
  rw [loadCommit, if_pos hfull, ht]

/-- Of a bank at most one of whose records satisfies `p`, at most one is counted. -/
theorem Bank.countP_le_one {α : Type} {n : Nat} (b : Bank α n) (p : α → Bool)
    (h : ∀ i j, p (b.get i) = true → p (b.get j) = true → i = j) : b.cells.countP p ≤ 1 := by
  have hcells : b.cells = (List.finRange n).map b.get := by simpa using Bank.map_cells b id
  rw [hcells, List.countP_map, List.countP_eq_length_filter]
  have hnodup := (List.nodup_finRange n).filter (p ∘ b.get)
  have hall : ∀ i ∈ (List.finRange n).filter (p ∘ b.get), p (b.get i) = true := fun i hi =>
    (List.mem_filter.mp hi).2
  match hl : (List.finRange n).filter (p ∘ b.get) with
  | [] => simp
  | [_] => simp
  | i :: j :: is =>
    rw [hl] at hnodup hall
    have hij : i = j := h i j (hall i (by simp)) (hall j (by simp))
    simp [hij] at hnodup

/-- The CONFLICT check passes the sound maps alone (R22, R24). -/
theorem mapConflict_iff (m : Bank MapEntry 128) : mapConflict m = true ↔ ¬ MapSound m := by
  constructor
  · intro h hsound
    obtain ⟨c, -, hc⟩ := List.any_eq_true.mp h
    have := Bank.countP_le_one m (MapEntry.claims c) (hsound c)
    exact absurd (of_decide_eq_true hc) (Nat.not_le.mpr (Nat.lt_succ_of_le this))
  · intro h
    rw [← Bool.not_eq_false]
    exact fun hno => h (mapSound_of_no_conflict hno)

theorem MapEntry.holdsInUse_iff (s : State) (e : MapEntry) :
    e.holdsInUse s = true ↔ ∃ ch, e.claims ch = true ∧ inUse s ch = true := by
  simp [MapEntry.holdsInUse, MapEntry.claims]

/-- The IN_USE check of a MAP commit (R25). -/
theorem mapInUse_iff (s : State) (m : Bank MapEntry 128) :
    mapInUse s m = true ↔
      ∃ i, m.get i ≠ s.map.get i ∧
        ((∃ ch, (s.map.get i).claims ch = true ∧ inUse s ch = true) ∨
          ∃ ch, (m.get i).claims ch = true ∧ inUse s ch = true) := by
  rw [mapInUse, List.any_eq_true]
  simp only [List.mem_finRange, true_and, Bool.and_eq_true, Bool.or_eq_true, bne_iff_ne,
    MapEntry.holdsInUse_iff]
  exact exists_congr fun i => and_congr_left' ne_comm

/-- Whether a slot references a channel, way by way (R25). -/
theorem Slot.references_iff (x : Slot) (ch : Fin 16) :
    x.references ch = true ↔ x.state ≠ .idle ∧
      (x.config.endpointA.channel = ch ∨
        (∃ e, x.config.endpointB = some e ∧ e.channel = ch) ∨
        (∃ e, x.config.armSource = .armEdge e ∧ e.channel = ch) ∨
        ∃ l, x.config.gate = .external ch l) := by
  simp only [Slot.references, Bool.and_eq_true, Bool.or_eq_true, bne_iff_ne, beq_iff_eq, or_assoc]
  refine and_congr_right fun _ => or_congr Iff.rfl (or_congr ?_ (or_congr ?_ ?_))
  · cases x.config.endpointB <;> simp
  · cases x.config.armSource <;> simp
  · cases x.config.gate <;> simp

theorem inUse_iff (s : State) (ch : Fin 16) :
    inUse s ch = true ↔
      (∃ i, (s.slots.get i).references ch = true) ∨ (s.cal.active = true ∧ s.cal.channel = ch) := by
  rw [inUse, Bool.or_eq_true, Bank.any_iff, Bool.and_eq_true, beq_iff_eq]

theorem mergedMap_get (first : Nat) (ws : List Word16) (stored : Bank MapEntry 128) (i : Fin 128) :
    (mergedMap first (ws.map mapEntryOf) stored).get i =
      if first ≤ i.val ∧ i.val < first + ws.length then
        mapEntryOf (ws.getD (i.val - first) 0)
      else stored.get i := by
  rw [mergedMap, Bank.get_tabulate, List.length_map]
  split
  · have hlt : i.val - first < ws.length := by omega
    rw [List.getD_eq_getElem _ _ (by rwa [List.length_map]), List.getElem_map,
      List.getD_eq_getElem _ _ hlt]
  · rfl

/-- Settles O32: CONFLICT is that the merged map is not sound, and IN_USE that a changed entry is held. -/
theorem mapCommitChecksConflictThenInUse : Obligations.MapCommitChecksConflictThenInUse := by
  unfold Obligations.MapCommitChecksConflictThenInUse
  refine ⟨fun c s h hfull ht => ⟨_, mergedMap_get _ _ _, ?_⟩, fun w => ⟨fun hw => ?_, fun hw => ?_,
    fun hw => ?_, fun hw => ?_⟩, fun s ch => ?_⟩
  · have hcommit := loadCommit_map (s := consumed s) hfull ht
    have hmerged : mergedMap (consumed s).command.load.first
        ((consumed s).command.load.words.map mapEntryOf) (consumed s).map =
      mergedMap s.command.load.first (s.command.load.words.map mapEntryOf) s.map := rfl
    rw [commitMap, hmerged] at hcommit
    generalize mergedMap s.command.load.first (s.command.load.words.map mapEntryOf) s.map = m at *
    intro held barred
    have huse : mapInUse (consumed s) m = true ↔ barred := mapInUse_iff (consumed s) m
    rw [exec_loadCommit h, hcommit]
    refine ⟨fun hunsound => ?_, fun hsound hb => ?_, fun hsound hb => ?_⟩
    · rw [if_pos ((mapConflict_iff m).mpr hunsound)]
      rfl
    · rw [if_neg (mt (mapConflict_iff m).mp (not_not.mpr hsound)), if_pos (huse.mpr hb)]
      rfl
    · rw [if_neg (mt (mapConflict_iff m).mp (not_not.mpr hsound)), if_neg (mt huse.mp hb)]
      rfl
  · rw [mapEntryOf, hw]
    rfl
  · rw [mapEntryOf, hw]
    rfl
  · rw [mapEntryOf, hw]
    rfl
  · rw [mapEntryOf, hw]
    rfl
  · rw [inUse_iff]
    exact or_congr_left (exists_congr fun i => Slot.references_iff _ ch)

/-! ## The LIN commit -/

/-- The value before the one numbered `k`, in a list of values behind `prev` (R54). -/
def valueBefore (prev : Nat) (vs : List Nat) (k : Nat) : Nat := (prev :: vs).getD k 0

/-- Whether the shape check fails on the value numbered `k` (R54). -/
def failsAt (prev : Nat) (vs : List Nat) (k : Nat) : Prop :=
  4095 < vs.getD k 0 ∨ vs.getD k 0 < valueBefore prev vs k

theorem failsAt_succ (prev v : Nat) (vs : List Nat) (k : Nat) :
    failsAt prev (v :: vs) (k + 1) ↔ failsAt v vs k := Iff.rfl

/-- The shape check answers the lowest index that fails (R54). -/
theorem shapeFailure_of_first {vs : List Nat} {i prev k : Nat} (hk : k < vs.length)
    (hfail : failsAt prev vs k) (hbefore : ∀ j, j < k → ¬ failsAt prev vs j) :
    shapeFailure i prev vs = some (i + k) := by
  induction vs generalizing i prev k with
  | nil => cases hk
  | cons v vs ih =>
    rw [shapeFailure]
    match k with
    | 0 => exact if_pos hfail
    | k + 1 =>
      have hv : ¬ (4095 < v ∨ v < prev) := hbefore 0 (Nat.succ_pos k)
      rw [if_neg hv, ih (Nat.lt_of_succ_lt_succ hk) hfail
        fun j hj => hbefore (j + 1) (Nat.succ_lt_succ hj)]
      congr 1
      omega

theorem shapeFailure_of_none {vs : List Nat} {i prev : Nat}
    (h : ∀ k, k < vs.length → ¬ failsAt prev vs k) : shapeFailure i prev vs = none := by
  induction vs generalizing i prev with
  | nil => rfl
  | cons v vs ih =>
    have hv : ¬ (4095 < v ∨ v < prev) := h 0 (Nat.succ_pos _)
    rw [shapeFailure, if_neg hv]
    exact ih fun k hk => h (k + 1) (Nat.succ_lt_succ hk)

theorem overlay_getD (first : Nat) (ws : List Word16) (stored : Entries) (i : Fin 256) :
    (overlay first (ws.map (·.toNat)) stored).getD i.val 0 =
      if first ≤ i.val ∧ i.val < first + ws.length then (ws.getD (i.val - first) 0).toNat
      else (stored.get i).toNat := by
  have hlt : i.val < (overlay first (ws.map (·.toNat)) stored).length := by
    rw [overlay_length]
    exact i.isLt
  have hstaged : (ws.map (·.toNat)).getD (i.val - first) 0 = (ws.getD (i.val - first) 0).toNat :=
    List.getD_map (f := fun w : Word16 => w.toNat) (d := 0) ..
  rw [List.getD_eq_getElem _ _ hlt, ← hstaged]
  simp only [overlay, List.getElem_map, List.getElem_finRange, List.length_map]
  rfl

/-- A staged value fails as the one of its own index (R54). -/
theorem failsAt_iff {vs : List Nat} (i : Fin 256) :
    failsAt 0 vs i.val ↔
      4095 < vs.getD i.val 0 ∨ ∃ j : Fin 256, j.val + 1 = i.val ∧ vs.getD i.val 0 < vs.getD j.val 0 := by
  refine or_congr Iff.rfl ?_
  rw [valueBefore]
  constructor
  · intro h
    match hi : i.val with
    | 0 =>
      rw [hi] at h
      cases h
    | k + 1 =>
      rw [hi] at h
      exact ⟨⟨k, by omega⟩, rfl, h⟩
  · rintro ⟨j, hj, h⟩
    rw [← hj] at h ⊢
    exact h

theorem commitTable_of_shape {t : Fin 8} {l : LoadBuffer} {s : State} {i : Nat}
    (h : shapeFailure 0 0 (overlay l.first (l.words.map (·.toNat)) (s.tables.get t).entries) = some i) :
    commitTable t l s = .still s .shape [num 8 i] := by
  rw [commitTable, h]

theorem commitTable_of_rising {t : Fin 8} {l : LoadBuffer} {s : State}
    (h : shapeFailure 0 0 (overlay l.first (l.words.map (·.toNat)) (s.tables.get t).entries) = none) :
    commitTable t l s =
      ⟨emptyLoad (beginUpdate t
        (entriesOf (overlay l.first (l.words.map (·.toNat)) (s.tables.get t).entries)) s),
        .accepted, []⟩ := by
  rw [commitTable, h]

theorem entriesOf_get_toNat {vs : List Nat} (i : Fin 256) (h : vs.getD i.val 0 ≤ 4095) :
    ((entriesOf vs).get i).toNat = vs.getD i.val 0 := by
  rw [entriesOf, Bank.get_tabulate, BitVec.toNat_ofNat]
  omega

/-- The values that a LIN load lays over the entries of its table (R53). -/
def stagedValues (s : State) (t : Fin 8) : List Nat :=
  overlay s.command.load.first (s.command.load.words.map (·.toNat)) (s.tables.get t).entries

/-- Settles O33: the shape check by its first failing index, and the merged table where there is none. -/
theorem linCommitChecksTheShape : Obligations.LinCommitChecksTheShape := by
  unfold Obligations.LinCommitChecksTheShape
  intro c t s h hfull ht merged fails
  have hmerged : ∀ i : Fin 256, (stagedValues s t).getD i.val 0 = merged i := overlay_getD _ _ _
  have hlen : (stagedValues s t).length = 256 := overlay_length _ _ _
  have hfails : ∀ i : Fin 256, failsAt 0 (stagedValues s t) i.val ↔ fails i := fun i => by
    rw [failsAt_iff]
    simp only [hmerged]
    rfl
  rw [exec_loadCommit h, loadCommit_lin (s := consumed s) hfull ht]
  refine ⟨fun i hi hbefore => ?_, fun hnone => ⟨entriesOf (stagedValues s t), fun i => ?_, ?_⟩⟩
  · have hshape := shapeFailure_of_first (i := 0) (by rw [hlen]; exact i.isLt) ((hfails i).mpr hi)
      fun j hj => mt (hfails ⟨j, hj.trans i.isLt⟩).mp (hbefore _ hj)
    rw [Nat.zero_add] at hshape
    rw [commitTable_of_shape (s := consumed s) (l := (consumed s).command.load) hshape]
    rfl
  · have hle : merged i ≤ 4095 := Nat.le_of_not_lt fun hgt => hnone i (.inl hgt)
    rw [entriesOf_get_toNat i (by rwa [hmerged]), hmerged]
  · have hshape := shapeFailure_of_none (vs := stagedValues s t) (i := 0) (prev := 0) fun k hk =>
      mt (hfails ⟨k, hlen ▸ hk⟩).mp (hnone _)
    rw [commitTable_of_rising (s := consumed s) (l := (consumed s).command.load) hshape]
    rfl

/-! ## The PLAN commit: the staged steps -/

/-- The step staged by the `k`-th three words from step number `first` on (R162). -/
def stagedStep (first : Nat) (ws : List Word16) (k : Nat) : Option PlanStep :=
  planStepOf (first + k) (ws.getD (3 * k) 0) (ws.getD (3 * k + 1) 0) (ws.getD (3 * k + 2) 0)

theorem stagedStep_succ (first : Nat) (w0 w1 w2 : Word16) (ws : List Word16) (k : Nat) :
    stagedStep first (w0 :: w1 :: w2 :: ws) (k + 1) = stagedStep (first + 1) ws k := by
  rw [stagedStep, stagedStep, Nat.add_right_comm first 1 k]
  rfl

/-- A text of three times as many words holds a step's three words first. -/
theorem exists_threeWords {n : Nat} {ws : List Word16} (hlen : ws.length = (n + 1) * 3) :
    ∃ w0 w1 w2 ws', ws = w0 :: w1 :: w2 :: ws' ∧ ws'.length = n * 3 := by
  obtain _ | ⟨w0, _ | ⟨w1, _ | ⟨w2, ws⟩⟩⟩ := ws
  case cons.cons.cons =>
    refine ⟨w0, w1, w2, ws, rfl, ?_⟩
    rw [List.length_cons, List.length_cons, List.length_cons] at hlen
    omega
  all_goals
    simp only [List.length_cons, List.length_nil] at hlen
    omega

theorem stagedSteps_cons (i : Nat) (w0 w1 w2 : Word16) (ws : List Word16) :
    stagedSteps i (w0 :: w1 :: w2 :: ws) =
      (planStepOf i w0 w1 w2).bind fun p => (stagedSteps (i + 1) ws).map (p :: ·) := by
  rw [stagedSteps]
  cases planStepOf i w0 w1 w2 <;> cases stagedSteps (i + 1) ws <;> rfl

/-- The steps are staged where none is refused (R115). -/
theorem stagedSteps_of_some {n : Nat} {first : Nat} {ws : List Word16} (hlen : ws.length = n * 3)
    (h : ∀ k, k < n → stagedStep first ws k ≠ none) :
    ∃ ps, stagedSteps first ws = some ps ∧ ps.length = n ∧
      ∀ (k : Nat) (hk : k < ps.length), stagedStep first ws k = some ps[k] := by
  induction n generalizing first ws with
  | zero =>
    obtain rfl := List.length_eq_zero_iff.mp (hlen.trans (Nat.zero_mul 3))
    exact ⟨[], rfl, rfl, nofun⟩
  | succ n ih =>
    obtain ⟨w0, w1, w2, ws, rfl, hrest⟩ := exists_threeWords hlen
    obtain ⟨ps, hps, hn, hget⟩ := ih (first := first + 1) hrest fun k hk => by
      rw [← stagedStep_succ first w0 w1 w2]
      exact h (k + 1) (Nat.succ_lt_succ hk)
    obtain ⟨p, hp⟩ := Option.ne_none_iff_exists'.mp (h 0 (Nat.succ_pos n))
    have hp' : planStepOf first w0 w1 w2 = some p := hp
    refine ⟨p :: ps, by rw [stagedSteps_cons, hp', hps]; rfl, by rw [List.length_cons, hn], fun k hk => ?_⟩
    match k, hk with
    | 0, _ => exact hp
    | k + 1, hk => exact (stagedStep_succ ..).trans (hget k (Nat.lt_of_succ_lt_succ hk))

/-- One refused step refuses the load (R115). -/
theorem stagedSteps_of_none {n k : Nat} {first : Nat} {ws : List Word16} (hlen : ws.length = n * 3)
    (hk : k < n) (h : stagedStep first ws k = none) : stagedSteps first ws = none := by
  induction n generalizing first ws k with
  | zero => cases hk
  | succ n ih =>
    obtain ⟨w0, w1, w2, ws, rfl, hrest⟩ := exists_threeWords hlen
    rw [stagedSteps_cons]
    cases k with
    | zero =>
      have h' : planStepOf first w0 w1 w2 = none := h
      rw [h', Option.bind_none]
    | succ k =>
      rw [stagedStep_succ] at h
      rw [ih hrest (Nat.lt_of_succ_lt_succ hk) h]
      exact Option.bind_fun_none _

/-! ## The PLAN commit: the steps that a run can reach -/

/-- The step that follows another by its stored action (R115). -/
def nextStep (plan : Bank PlanStep 64) (n : Fin 64) : Option (Fin 64) :=
  match (plan.get n).action with
  | .next => some (n + 1)
  | .jump m => some m
  | .last => none

theorem reachable_succ (plan : Bank PlanStep 64) (fuel : Nat) (n : Fin 64) :
    reachable plan (fuel + 1) n =
      n :: ((nextStep plan n).map (reachable plan fuel)).getD [] := by
  rw [reachable, nextStep]
  cases (plan.get n).action <;> rfl

/-- In a sound plan a step leads where its action says (R115). -/
theorem leadsTo_iff {plan : Bank PlanStep 64} (h : PlanSound plan) (a b : Fin 64) :
    LeadsTo plan a b ↔ nextStep plan a = some b := by
  rw [LeadsTo, nextStep]
  cases ha : (plan.get a).action with
  | next =>
    have hne : a ≠ 63 := fun e => h.2 (e ▸ ha)
    have hval : (a + 1).val = a.val + 1 := by
      have : a.val ≠ 63 := fun e => hne (Fin.ext e)
      rw [Fin.val_add]
      simp
      omega
    simp [Fin.ext_iff, hval, eq_comm]
  | jump m => simp [eq_comm]
  | last => simp

/-- The step reached after a number of steps, if the plan goes so far. -/
def stepAfter (plan : Bank PlanStep 64) : Nat → Fin 64 → Option (Fin 64)
  | 0, n => some n
  | j + 1, n => (nextStep plan n).bind (stepAfter plan j)

theorem stepAfter_add (plan : Bank PlanStep 64) (a b : Nat) (n : Fin 64) :
    stepAfter plan (a + b) n = (stepAfter plan a n).bind (stepAfter plan b) := by
  induction a generalizing n with
  | zero => rw [Nat.zero_add]; rfl
  | succ a ih =>
    rw [Nat.succ_add, stepAfter, stepAfter, Option.bind_assoc]
    exact congrArg _ (funext ih)

theorem mem_reachable_iff {plan : Bank PlanStep 64} {fuel : Nat} {n k : Fin 64} :
    k ∈ reachable plan fuel n ↔ ∃ j, j < fuel ∧ stepAfter plan j n = some k := by
  induction fuel generalizing n with
  | zero => simp [reachable]
  | succ fuel ih =>
    rw [reachable_succ, List.mem_cons]
    constructor
    · rintro (rfl | h)
      · exact ⟨0, Nat.succ_pos _, rfl⟩
      · cases hn : nextStep plan n with
        | none => rw [hn] at h; cases h
        | some m =>
          rw [hn] at h
          obtain ⟨j, hj, hk⟩ := ih.mp h
          exact ⟨j + 1, Nat.succ_lt_succ hj, by rw [stepAfter, hn]; exact hk⟩
    · rintro ⟨j, hj, hk⟩
      match j, hj, hk with
      | 0, _, hk => exact .inl (Option.some.inj hk).symm
      | j + 1, hj, hk =>
        rw [stepAfter] at hk
        obtain ⟨m, hm, hk⟩ := Option.bind_eq_some_iff.mp hk
        rw [hm]
        exact .inr (ih.mpr ⟨j, Nat.lt_of_succ_lt_succ hj, hk⟩)

theorem reflTransGen_iff_stepAfter {plan : Bank PlanStep 64} (h : PlanSound plan) {n k : Fin 64} :
    Relation.ReflTransGen (LeadsTo plan) n k ↔ ∃ j, stepAfter plan j n = some k := by
  constructor
  · intro hr
    induction hr using Relation.ReflTransGen.head_induction_on with
    | refl => exact ⟨0, rfl⟩
    | head hab _ ih =>
      obtain ⟨j, hj⟩ := ih
      rw [leadsTo_iff h] at hab
      exact ⟨j + 1, by rw [stepAfter, hab]; exact hj⟩
  · rintro ⟨j, hj⟩
    induction j generalizing n with
    | zero =>
      obtain rfl := Option.some.inj hj
      exact .refl
    | succ j ih =>
      obtain ⟨m, hm, hj⟩ := Option.bind_eq_some_iff.mp hj
      exact .head ((leadsTo_iff h n m).mpr hm) (ih hj)

/-- A step that is reached at all is reached within sixty-four steps: a longer way meets a step twice. -/
theorem stepAfter_lt {plan : Bank PlanStep 64} {n k : Fin 64}
    (h : ∃ j, stepAfter plan j n = some k) : ∃ j, j < 64 ∧ stepAfter plan j n = some k := by
  classical
  refine ⟨Nat.find h, ?_, Nat.find_spec h⟩
  by_contra hlong
  have hspec := Nat.find_spec h
  have hsome : ∀ i : Fin 65, ∃ v, stepAfter plan i.val n = some v := fun i => by
    have hi : i.val + (Nat.find h - i.val) = Nat.find h := by omega
    rw [← hi, stepAfter_add] at hspec
    obtain ⟨v, hv, -⟩ := Option.bind_eq_some_iff.mp hspec
    exact ⟨v, hv⟩
  choose v hv using hsome
  obtain ⟨a, b, hne, hab⟩ := Fintype.exists_ne_map_eq_of_card_lt v (by simp)
  wlog hlt : a < b generalizing a b
  · exact this b a hne.symm hab.symm (lt_of_le_of_ne (not_lt.mp hlt) hne.symm)
  have hshort : stepAfter plan (a.val + (Nat.find h - b.val)) n = some k := by
    have hb : b.val + (Nat.find h - b.val) = Nat.find h := by omega
    rw [stepAfter_add, hv, hab, ← hv, ← stepAfter_add, hb]
    exact hspec
  have hless : a.val + (Nat.find h - b.val) < Nat.find h := by
    have : a.val < b.val := hlt
    omega
  exact Nat.find_min h hless hshort

/-- The steps that the check follows are those that the plan can reach (R115). -/
theorem mem_reachable {plan : Bank PlanStep 64} (h : PlanSound plan) {n k : Fin 64} :
    k ∈ reachable plan 64 n ↔ Relation.ReflTransGen (LeadsTo plan) n k := by
  rw [mem_reachable_iff, reflTransGen_iff_stepAfter h]
  exact ⟨fun ⟨j, _, hj⟩ => ⟨j, hj⟩, stepAfter_lt⟩

theorem Slot.mem_planReach_iff {plan : Bank PlanStep 64} (h : PlanSound plan) {x : Slot} {k : Fin 64} :
    k ∈ x.planReach plan ↔ ∃ f n : Fin 64, x.state ≠ .idle ∧ x.config.gate = .plan f ∧
      x.run.planStep = some n ∧ Relation.ReflTransGen (LeadsTo plan) n k := by
  rw [Slot.planReach]
  split
  · next hidle => simp [hidle]
  · next hrun =>
    split
    · next f n hgate hstep => simp [hrun, hgate, hstep, mem_reachable h]
    · next hnone =>
      refine iff_of_false nofun ?_
      rintro ⟨f, n, -, hgate, hstep, -⟩
      exact hnone f n hgate hstep

theorem planInUse_iff {s : State} (h : PlanSound s.plan) (first count : Nat) :
    planInUse s first count = true ↔ ∃ (i : Fin 8) (f n k : Fin 64), (s.slots.get i).state ≠ .idle ∧
      (s.slots.get i).config.gate = .plan f ∧ (s.slots.get i).run.planStep = some n ∧
      Relation.ReflTransGen (LeadsTo s.plan) n k ∧ first ≤ k.val ∧ k.val < first + count := by
  rw [planInUse, Bank.any_iff]
  refine exists_congr fun i => ?_
  rw [List.any_eq_true]
  simp only [Slot.mem_planReach_iff h, Bool.and_eq_true, decide_eq_true_eq]
  constructor
  · rintro ⟨k, ⟨f, n, hrun, hgate, hstep, hreach⟩, hk⟩
    exact ⟨f, n, k, hrun, hgate, hstep, hreach, hk⟩
  · rintro ⟨f, n, k, hrun, hgate, hstep, hreach, hk⟩
    exact ⟨k, ⟨f, n, hrun, hgate, hstep, hreach⟩, hk⟩

theorem mergedPlan_get_of_staged {first : Nat} {ps : List PlanStep} {stored : Bank PlanStep 64}
    {i : Fin 64} (h : first ≤ i.val ∧ i.val < first + ps.length) :
    some ((mergedPlan first ps stored).get i) = ps[i.val - first]? := by
  have hlt : i.val - first < ps.length := by omega
  rw [mergedPlan, Bank.get_tabulate, if_pos h, List.getElem?_eq_getElem hlt,
    List.getD_eq_getElem _ _ hlt]

theorem mergedPlan_get_of_stored {first : Nat} {ps : List PlanStep} {stored : Bank PlanStep 64}
    {i : Fin 64} (h : i.val < first ∨ first + ps.length ≤ i.val) :
    (mergedPlan first ps stored).get i = stored.get i := by
  rw [mergedPlan, Bank.get_tabulate, if_neg (by omega)]

theorem commitPlan_of_refused {l : LoadBuffer} {s : State} (h : stagedSteps l.first l.words = none) :
    commitPlan l s = .still s .range := by
  rw [commitPlan, h]

theorem commitPlan_of_inUse {l : LoadBuffer} {s : State} {ps : List PlanStep}
    (h : stagedSteps l.first l.words = some ps) (hu : planInUse s l.first ps.length = true) :
    commitPlan l s = .still s .inUse := by
  rw [commitPlan, h]
  exact if_pos hu

theorem commitPlan_of_free {l : LoadBuffer} {s : State} {ps : List PlanStep}
    (h : stagedSteps l.first l.words = some ps) (hu : ¬ planInUse s l.first ps.length = true) :
    commitPlan l s = ⟨emptyLoad { s with plan := mergedPlan l.first ps s.plan }, .done, []⟩ := by
  rw [commitPlan, h]
  exact if_neg hu

/-! ## The layout of a staged step -/

/-- The three words of a step as one number (R162). -/
theorem threeWords_toNat (w0 w1 w2 : Word16) :
    (w0 ++ w1 ++ w2).toNat = w0.toNat * 2 ^ 32 + w1.toNat * 2 ^ 16 + w2.toNat := by
  rw [BitVec.toNat_append, BitVec.toNat_append, ← Nat.shiftLeft_add_eq_or_of_lt w1.isLt,
    ← Nat.shiftLeft_add_eq_or_of_lt w2.isLt, Nat.shiftLeft_eq, Nat.shiftLeft_eq]
  ring

theorem extractLsb'_toNat_eq_div {w : Nat} (b : BitVec w) (start len : Nat) :
    (b.extractLsb' start len).toNat = b.toNat / 2 ^ start % 2 ^ len := by
  rw [BitVec.extractLsb'_toNat, Nat.shiftRight_eq_div_pow]

/-- The fields of a staged step, read off its bits by their places (R162). -/
theorem planStepOf_layout (i : Nat) (w0 w1 w2 : Word16) :
    let bits := (w0 ++ w1 ++ w2).toNat
    let action := bits / 2 ^ 9 % 4
    let refused := bits / 2 ^ 16 = 0 ∨ action = 3 ∨ (i = 63 ∧ action = 0)
    (refused → planStepOf i w0 w1 w2 = none) ∧
    (¬ refused → ∃ p : PlanStep, planStepOf i w0 w1 w2 = some p ∧ p.length.toNat = bits / 2 ^ 16 ∧
      p.kind = (if bits / 2 ^ 15 % 2 = 0 then .measure else .wait) ∧
      p.markers.toNat = bits / 2 ^ 11 % 16 ∧
      (action = 0 → p.action = .next) ∧
      (action = 1 → ∃ n : Fin 64, p.action = .jump n ∧ n.val = bits / 2 ^ 3 % 64) ∧
      (action = 2 → p.action = .last)) := by
  intro bits action refused
  have hlength : ((w0 ++ w1 ++ w2).extractLsb' 16 32).toNat = bits / 2 ^ 16 := by
    rw [extractLsb'_toNat_eq_div]
    exact Nat.mod_eq_of_lt (Nat.div_lt_of_lt_mul (w0 ++ w1 ++ w2).isLt)
  have hmarkers : ((w0 ++ w1 ++ w2).extractLsb' 11 4).toNat = bits / 2 ^ 11 % 16 :=
    extractLsb'_toNat_eq_div ..
  have htarget : ((w0 ++ w1 ++ w2).extractLsb' 3 6).toNat = bits / 2 ^ 3 % 64 :=
    extractLsb'_toNat_eq_div ..
  have haction : ((w0 ++ w1 ++ w2).extractLsb' 9 2).toNat = action := extractLsb'_toNat_eq_div ..
  have hkind : (if (w0 ++ w1 ++ w2).getLsbD 15 then StepKind.wait else .measure) =
      if bits / 2 ^ 15 % 2 = 0 then .measure else .wait := by
    rw [BitVec.getLsbD, Nat.testBit_eq_decide_div_mod_eq]
    change (if decide (bits / 2 ^ 15 % 2 = 1) then StepKind.wait else .measure) = _
    rcases Nat.mod_two_eq_zero_or_one (bits / 2 ^ 15) with h | h <;> rw [h] <;> rfl
  have hzero : (w0 ++ w1 ++ w2).extractLsb' 16 32 = 0 ↔ bits / 2 ^ 16 = 0 := by
    rw [← hlength, ← BitVec.toNat_inj]
    rfl
  have hle : action < 4 := Nat.mod_lt _ (by decide)
  rw [planStepOf, haction, hkind]
  by_cases hz : bits / 2 ^ 16 = 0
  · exact ⟨fun _ => if_pos (hzero.mpr hz), fun h => absurd (.inl hz) h⟩
  rw [if_neg (mt hzero.mp hz)]
  clear_value action
  obtain rfl | rfl | rfl | rfl : action = 0 ∨ action = 1 ∨ action = 2 ∨ action = 3 := by omega
  · by_cases hi : i = 63
    · exact ⟨fun _ => if_pos hi, fun h => absurd (.inr (.inr ⟨hi, rfl⟩)) h⟩
    · refine ⟨fun h => ?_, fun _ => ⟨_, if_neg hi, hlength, rfl, hmarkers, fun _ => rfl, nofun, nofun⟩⟩
      rcases h with h | h | h
      · exact absurd h hz
      · cases h
      · exact absurd h.1 hi
  · refine ⟨fun h => ?_, fun _ => ⟨_, rfl, hlength, rfl, hmarkers, nofun, fun _ => ⟨_, rfl, htarget⟩,
      nofun⟩⟩
    rcases h with h | h | h
    · exact absurd h hz
    · cases h
    · cases h.2
  · refine ⟨fun h => ?_, fun _ => ⟨_, rfl, hlength, rfl, hmarkers, nofun, nofun, fun _ => rfl⟩⟩
    rcases h with h | h | h
    · exact absurd h hz
    · cases h
    · cases h.2
  · exact ⟨fun _ => rfl, fun h => absurd (.inr (.inl rfl)) h⟩

/-- Settles O34: the staged steps are judged three words at a time, a running plan's reach is the
closure of the stored actions, and the fields of a step are read off its bits. -/
theorem planCommitKeepsReachableSteps : Obligations.PlanCommitKeepsReachableSteps := by
  unfold Obligations.PlanCommitKeepsReachableSteps
  refine ⟨fun c s h hload hplan hfull ht => ?_, fun i w0 w1 w2 => ?_⟩
  · intro first count word staged held
    have hlen : s.command.load.words.length = count * 3 := by
      rw [LoadSound, hfull] at hload
      obtain ⟨hwords, hexpected, -⟩ := hload
      rw [hwords, hexpected, ht]
      rfl
    have hcommit : loadCommit (consumed s) = commitPlan s.command.load (consumed s) :=
      loadCommit_plan (s := consumed s) hfull ht
    rw [exec_loadCommit h, hcommit]
    refine ⟨fun ⟨k, hk, hnone⟩ => ?_, fun hall => ?_⟩
    · rw [commitPlan_of_refused (stagedSteps_of_none hlen hk hnone)]
      rfl
    · obtain ⟨ps, hps, hcount, hget⟩ := stagedSteps_of_some hlen hall
      have huse : planInUse (consumed s) first ps.length = true ↔ held := by
        rw [planInUse_iff (s := consumed s) hplan, hcount]
        rfl
      refine ⟨fun hheld => ?_, fun hfree => ⟨mergedPlan first ps s.plan, fun i => ⟨fun hi => ?_, fun hi => ?_⟩,
        ?_⟩⟩
      · rw [commitPlan_of_inUse hps (huse.mpr hheld)]
        rfl
      · have hlt : i.val - first < ps.length := by omega
        rw [mergedPlan_get_of_staged (by rwa [hcount]), List.getElem?_eq_getElem hlt]
        exact hget _ hlt
      · exact mergedPlan_get_of_stored (by rwa [hcount])
      · rw [commitPlan_of_free hps (mt huse.mp hfree)]
        rfl
  · have hbits := planStepOf_layout i w0 w1 w2
    rwa [threeWords_toNat] at hbits

end Sys2Proof.Machine
end

section
/-!
SUPPORT. The Table Store and the Calibration Engine (chapters 4 and 5).
-/

namespace Sys2Proof.Machine

/-! ## The quality results (R68, R69) -/

/-- The widest bin of a histogram: its code is the lowest one with the greatest count. -/
theorem widestOf_spec (i : Nat) {bs : List Nat} (hne : bs ≠ []) :
    ∃ (k : Nat) (hk : k < bs.length), widestOf i bs = (bs[k], i + k) ∧
      (∀ (j : Nat) (hj : j < bs.length), bs[j] ≤ bs[k]) ∧
      ∀ (j : Nat) (hj : j < bs.length), j < k → bs[j] < bs[k] := by
  induction bs generalizing i with
  | nil => exact absurd rfl hne
  | cons b bs ih =>
    rw [widestOf]
    by_cases hbs : bs = []
    · subst hbs
      refine ⟨0, Nat.one_pos, if_pos (Nat.zero_le b), fun j hj => ?_, fun j _ h => absurd h (Nat.not_lt_zero j)⟩
      obtain rfl : j = 0 := by simpa using hj
      exact le_refl _
    · obtain ⟨k, hk, hw, hmax, hfirst⟩ := ih (i + 1) hbs
      rw [hw]
      by_cases hle : bs[k] ≤ b
      · refine ⟨0, Nat.succ_pos _, if_pos hle, fun j hj => ?_, fun j _ h => absurd h (Nat.not_lt_zero j)⟩
        cases j with
        | zero => exact le_refl _
        | succ j => exact (hmax j (Nat.lt_of_succ_lt_succ hj)).trans hle
      · refine ⟨k + 1, Nat.succ_lt_succ hk, ?_, fun j hj => ?_, fun j hj hjk => ?_⟩
        · rw [if_neg hle, List.getElem_cons_succ, Nat.add_assoc, Nat.add_comm 1 k]
        · cases j with
          | zero => exact (Nat.lt_of_not_le hle).le
          | succ j => exact hmax j (Nat.lt_of_succ_lt_succ hj)
        · cases j with
          | zero => exact Nat.lt_of_not_le hle
          | succ j => exact hfirst j (Nat.lt_of_succ_lt_succ hj) (Nat.lt_of_succ_lt_succ hjk)

theorem withQuality_quality (total : Nat) (g : Calibration) :
    QualityOf g.bins total (g.withQuality total).emptyBins (g.withQuality total).widestBin
      (g.withQuality total).widestCode := by
  refine ⟨rfl, fun h => ⟨if_pos h, if_pos h⟩, fun hpos => ?_⟩
  have hlen : g.counts.length = 256 := g.bins.size_eq
  have hne : g.counts ≠ [] := List.ne_nil_of_length_pos (by rw [hlen]; decide)
  obtain ⟨k, hk, hw, hmax, hfirst⟩ := widestOf_spec 0 hne
  have hcode : (g.withQuality total).widestCode = k := by
    change (if total = 0 then 0 else (widestOf 0 g.counts).2) = k
    rw [if_neg (by omega), hw, Nat.zero_add]
  have hwide : (g.withQuality total).widestBin = g.counts[k] * 4096 / total := by
    change (if total = 0 then 0 else (widestOf 0 g.counts).1 * 4096 / total) = _
    rw [if_neg (by omega), hw]
  have hk' : k < 256 := hlen ▸ hk
  have hget : ∀ b : Fin 256, g.bins.get b = g.counts[b.val]'(by rw [hlen]; exact b.isLt) :=
    fun b => Bank.get_eq g.bins b
  rw [hcode, hwide]
  refine ⟨hk', by rw [hget], fun b => ?_, fun b hb => ?_⟩
  · rw [hget, hget]
    exact hmax _ _
  · rw [hget, hget]
    exact hfirst _ _ hb

/-! ## Hits and the end of a run -/

theorem calEntries_getD (l : Nat) (sum : Nat) (hs : List Nat) (c : Nat) (hc : c < hs.length) :
    (calEntries l sum hs).getD c 0 =
      min 4095 ((2 * (sum + (hs.take c).sum) + hs[c]) * 4096 / (2 * l)) := by
  induction hs generalizing sum c with
  | nil => cases hc
  | cons h hs ih =>
    rw [calEntries]
    cases c with
    | zero => rfl
    | succ c =>
      rw [List.getD_cons_succ, ih _ c (Nat.lt_of_succ_lt_succ hc), List.take_succ_cons, List.sum_cons,
        Nat.add_assoc sum h]
      rfl

/-- The computed table, entry by entry (R67). -/
theorem computedTable_get (g : Calibration) (c : Fin 256) :
    (g.computedTable.get c).toNat =
      min 4095 ((2 * (g.bins.cells.take c.val).sum + g.bins.get c) * 4096 / (2 * 2 ^ g.k)) := by
  have hvalue := calEntries_getD (2 ^ g.k) 0 g.counts c.val (by
    rw [Calibration.counts, g.bins.size_eq]
    exact c.isLt)
  rw [Calibration.computedTable, entriesOf_get_toNat c (by rw [hvalue]; exact min_le_left _ _), hvalue,
    Nat.zero_add, Bank.get_eq]
  rfl

/-- How a run that has its hits ends: FAIL-EMPTY, or DONE and the table's update begins (R67, R68). -/
theorem completeCalibration_eq (s : State) :
    let q := s.cal.withQuality (2 ^ s.cal.k)
    let g (o : CalOutcome) : Calibration :=
      { s.cal with
        active := false, outcome := o, emptyBins := q.emptyBins, widestBin := q.widestBin
        widestCode := q.widestCode }
    (s.cal.emptyLimit < q.emptyBins →
      completeCalibration s =
        raise .cal [num 3 3, num 3 s.cal.table, num 8 q.emptyBins, num 13 q.widestBin]
          { s with cal := g .failEmpty }) ∧
    (q.emptyBins ≤ s.cal.emptyLimit →
      completeCalibration s =
        raise .cal [num 3 2, num 3 s.cal.table, num 8 q.emptyBins, num 13 q.widestBin]
          { s with
            cal := g .done
            tables :=
              s.tables.set s.cal.table
                { s.tables.get s.cal.table with phase := .updating 0 q.computedTable } }) := by
  intro q g
  exact ⟨fun h => if_pos h, fun h => if_neg (Nat.not_lt.mpr h)⟩

theorem hit_eq (fine : Fin 256) (s : State) :
    hit fine s =
      { s with
        cal :=
          { s.cal with
            bins := s.cal.bins.set fine (s.cal.bins.get fine + 1), hits := s.cal.hits + 1 } } := rfl

theorem complete_iff (g : Calibration) : g.complete = true ↔ g.active = true ∧ 2 ^ g.k ≤ g.hits := by
  rw [Calibration.complete, Bool.and_eq_true, decide_eq_true_eq]

/-- Settles O39: the count of a hit, the completed run's table and quality, and the row for such a run. -/
theorem calibrationCompletesAtTheLastHit : Obligations.CalibrationCompletesAtTheLastHit := by
  unfold Obligations.CalibrationCompletesAtTheLastHit
  intro ends
  have hends : ∀ s, ends s (completeCalibration s) := fun s =>
    ⟨_, _, _, (s.cal.withQuality (2 ^ s.cal.k)).computedTable, withQuality_quality _ s.cal,
      computedTable_get _, completeCalibration_eq s⟩
  refine ⟨fun s ch fine => ?_, fun s hheld => ⟨fun ha hl => ⟨_, ?_, hends s⟩, fun h => ?_⟩⟩
  · intro counted
    have hcounted : hit fine s = counted := hit_eq fine s
    rw [calibrationTap_eq, hcounted]
    refine ⟨fun h => if_neg ?_, fun ha hch => ?_⟩
    · rw [Bool.and_eq_true, beq_iff_eq]
      rintro ⟨ha, hch⟩
      rcases h with h | h
      · cases h.symm.trans ha
      · exact h hch
    · rw [if_pos (by rw [ha, hch, Bool.true_and, beq_self_eq_true])]
      refine ⟨fun hlt => if_neg fun hc => ?_, fun heq => ?_⟩
      · exact absurd ((complete_iff _).mp hc).2 (Nat.not_le.mpr hlt)
      · rw [if_pos ((complete_iff counted.cal).mpr ⟨ha, heq.ge⟩)]
        exact hends counted
  · change execCalCompletion s = _
    rw [execCalCompletion, hheld, (complete_iff _).mpr ⟨ha, hl.ge⟩]
    rfl
  · have hnot : s.cal.complete = false := by
      rw [← Bool.not_eq_true, complete_iff]
      rintro ⟨ha, hle⟩
      rcases h with h | h
      · cases h.symm.trans ha
      · exact absurd hle (Nat.not_le.mpr h)
    change execCalCompletion s = _
    rw [execCalCompletion, hnot, Bool.and_false]
    rfl

/-! ## CAL-RUN -/

theorem exec_calRun {c : Cell} {s : State} (h : TakesQuietly s c) (table channel k timeout limit : Nat) :
    exec (.calRun c table channel k timeout limit) s =
      .next (replied c (calRun table channel k timeout limit (consumed s)).code
        (calRun table channel k timeout limit (consumed s)).fields
        (calRun table channel k timeout limit (consumed s)).state) := by
  change execCalRun c table channel k timeout limit s = _
  rw [execCalRun, takeCommand_quiet h]

section CalRun
variable {s : State} {k timeout limit : Nat}

theorem calRun_of_unknown {table channel : Nat} (h : 8 ≤ table ∨ 16 ≤ channel) :
    calRun table channel k timeout limit s =
      .still s .range [num 3 table, num 4 channel, num 5 k] := by
  rw [calRun]
  rcases h with h | h
  · rw [inRange_of_le h]
  · rw [inRange_of_le h]
    cases inRange 8 table <;> rfl

variable {t : Fin 8} {ch : Fin 16}

theorem calRun_of_range (h : k < 12 ∨ 20 < k ∨ timeout = 0 ∨ 65535 < timeout ∨ 255 < limit) :
    calRun t ch k timeout limit s = .still s .range [num 3 t, num 4 ch, num 5 k] := by
  have hout : (between 12 20 k && between 1 65535 timeout && between 0 255 limit) = false := by
    rw [← Bool.not_eq_true, Bool.and_eq_true, Bool.and_eq_true, between_iff, between_iff, between_iff]
    omega
  rw [calRun, inRange_val, inRange_val]
  exact if_pos (by rw [hout]; rfl)

variable (hin : (12 ≤ k ∧ k ≤ 20) ∧ (1 ≤ timeout ∧ timeout ≤ 65535) ∧ limit ≤ 255)
include hin

/-- CAL-RUN with every argument in range: BUSY, then STATE, then the run (R63, R64). -/
theorem calRun_in_range :
    calRun t ch k timeout limit s =
      if s.cal.active || (s.tables.get t).isUpdating || fullLoadOf s t then
        .still s .busy [num 3 t, num 4 ch, num 5 k]
      else if !(s.channels.get ch).set.enable || !s.map.cells.any (·.claims ch) then
        .still s .state [num 3 t, num 4 ch, num 5 k]
      else
        ⟨{ s with
            cal :=
              { active := true, table := t, channel := ch, k := k, timeout := timeout
                emptyLimit := limit, hits := 0, elapsed := 0, outcome := .running, emptyBins := 0
                widestBin := 0, widestCode := 0, bins := .fill 256 0 } },
          .accepted, [num 3 t, num 4 ch, num 5 k]⟩ := by
  have hall : (between 12 20 k && between 1 65535 timeout && between 0 255 limit) = true := by
    rw [Bool.and_eq_true, Bool.and_eq_true, between_iff, between_iff, between_iff]
    exact ⟨⟨hin.1, hin.2.1⟩, Nat.zero_le _, hin.2.2⟩
  rw [calRun, inRange_val, inRange_val]
  exact if_neg (by rw [hall]; decide)

end CalRun

theorem calBusy_iff (s : State) (t : Fin 8) :
    (s.cal.active || (s.tables.get t).isUpdating || fullLoadOf s t) = true ↔
      s.cal.active = true ∨ (s.tables.get t).isUpdating = true ∨
        (s.command.load.phase = .full ∧ s.command.load.target = .lin t) := by
  rw [fullLoadOf, Bool.or_eq_true, Bool.or_eq_true, Bool.and_eq_true, beq_iff_eq, beq_iff_eq, or_assoc]

theorem calUnfed_iff (s : State) (ch : Fin 16) :
    (!(s.channels.get ch).set.enable || !s.map.cells.any (·.claims ch)) = true ↔
      (s.channels.get ch).set.enable = false ∨ ∀ i, (s.map.get i).claims ch = false := by
  rw [Bool.or_eq_true, Bool.not_eq_true', Bool.not_eq_true', ← Bool.not_eq_true (s.map.cells.any _),
    Bank.any_iff, not_exists]
  simp only [Bool.not_eq_true]

/-- Settles O37: the refusals in their order, and the fresh run. -/
theorem calRunStartsARun : Obligations.CalRunStartsARun := by
  unfold Obligations.CalRunStartsARun
  intro c table channel k timeout limit s h reply run
  have hrun : run = _ := exec_calRun h table channel k timeout limit
  refine ⟨fun hbad => ?_, ?_⟩
  · rw [hrun]
    by_cases hout : 8 ≤ table ∨ 16 ≤ channel
    · rw [calRun_of_unknown hout]
      rfl
    · have hrange := calRun_of_range (s := consumed s) (t := ⟨table, by omega⟩) (ch := ⟨channel, by omega⟩)
        (k := k) (timeout := timeout) (limit := limit) (by omega)
      rw [hrange]
      rfl
  · rintro t ch rfl rfl hk hk' ht ht' hl busy unfed
    have hbusy : _ ↔ busy := calBusy_iff (consumed s) t
    have hunfed : _ ↔ unfed := calUnfed_iff (consumed s) ch
    rw [hrun, calRun_in_range ⟨⟨hk, hk'⟩, ⟨ht, ht'⟩, hl⟩]
    refine ⟨fun hb => ?_, fun hb hu => ?_, fun hb hu => ?_⟩
    · rw [if_pos (hbusy.mpr hb)]
      rfl
    · rw [if_neg (mt hbusy.mp hb), if_pos (hunfed.mpr hu)]
      rfl
    · rw [if_neg (mt hbusy.mp hb), if_neg (mt hunfed.mp hu)]

/-! ## A run that ends early -/

theorem choose_eq_none {α : Type} {n : Nat} {l : List α} (h : choose n l = none) : l = [] := by
  match l with
  | [] => rfl
  | [x] => cases h
  | x :: y :: rest => cases h

/-- The run record of a run whose time limit expires (R66, R69). -/
def Calibration.expired (g : Calibration) : Calibration :=
  { { g with elapsed := g.limit }.withQuality g.hits with active := false, outcome := .failTimeout }

theorem expireCalibration_cal (s : State) : (expireCalibration s).cal = s.cal.expired := rfl

theorem takePeriodEvent_updateEnd_cal (t : Fin 8) (s : State) :
    (takePeriodEvent (.updateEnd t) s).cal = s.cal := by
  rw [takePeriodEvent]
  split <;> rfl

/-- A run that has expired stays so over the events of a period's end. -/
theorem takePeriodEvents_cal_of_expired {g : Calibration} (fuel : Nat) (es : List PeriodEvent) {s : State}
    (h : s.cal = g.expired) : (takePeriodEvents fuel es s).cal = g.expired := by
  induction fuel generalizing es s with
  | zero => exact h
  | succ fuel ih =>
    rw [takePeriodEvents]
    split
    · exact h
    · rename_i e others n _
      refine ih others ?_
      cases e with
      | updateEnd t => rwa [takePeriodEvent_updateEnd_cal]
      | calTimeout =>
        change s.cal.expired = _
        rw [h]
        rfl

/-- The time limit that is due is taken (R66). -/
theorem takePeriodEvents_calTimeout {fuel : Nat} {es : List PeriodEvent} {s : State}
    (hfuel : es.length ≤ fuel) (hmem : PeriodEvent.calTimeout ∈ es) :
    (takePeriodEvents fuel es s).cal = s.cal.expired := by
  induction fuel generalizing es s with
  | zero =>
    rw [List.length_eq_zero_iff.mp (Nat.le_zero.mp hfuel)] at hmem
    cases hmem
  | succ fuel ih =>
    rw [takePeriodEvents]
    split
    · rename_i hnone
      rw [choose_eq_none hnone] at hmem
      cases hmem
    · rename_i e others n hchoose
      have hperm := choose_perm hchoose
      cases e with
      | calTimeout => exact takePeriodEvents_cal_of_expired fuel others rfl
      | updateEnd t =>
        have hrest : PeriodEvent.calTimeout ∈ others :=
          (List.mem_cons.mp (hperm.mem_iff.mpr hmem)).resolve_left nofun
        have hlen : others.length ≤ fuel := by
          have := hperm.length_eq
          rw [List.length_cons] at this
          omega
        rw [ih hlen hrest, takePeriodEvent_updateEnd_cal]

theorem advanced_cal (s : State) (ha : s.cal.active = true) :
    (advanced s).cal = { s.cal with elapsed := s.cal.elapsed + 1 } := by
  rw [(advanced_runs s).moves.same.cal, (counted_same s).2.2, if_pos ha]

theorem exec_timebaseAdvance {s : State} (hheld : s.held = false) :
    exec .timebaseAdvance s = .next (endPeriod s) := by
  change execTimebaseAdvance s = _
  rw [execTimebaseAdvance, if_neg (by rw [hheld]; decide)]

theorem endMarkerPeriod_cal (s : State) : (endMarkerPeriod s).cal = s.cal := by
  obtain ⟨_, _, h⟩ := endMarkerPeriod_frame s
  rw [h]

/-- The period in which the elapsed count reaches the limit ends the run (R66). -/
theorem endPeriod_cal_of_limit {s : State} (ha : s.cal.active = true)
    (hl : s.cal.limit ≤ s.cal.elapsed + 1) :
    (endPeriod s).cal = s.cal.expired := by
  have hcal := advanced_cal s ha
  have hdue : PeriodEvent.calTimeout ∈ periodEvents (advanced s) :=
    mem_periodEvents_calTimeout (by rw [hcal]; exact ha) (by rw [hcal]; exact hl)
  rw [endPeriod_eq, endMarkerPeriod_cal, takePeriodEvents_calTimeout (le_refl _) hdue, hcal]
  rfl

/-- Settles O38: CAL-CANCEL and the expiry of the time limit, at its row and at the period's end. -/
theorem calibrationEndsEarly : Obligations.CalibrationEndsEarly := by
  unfold Obligations.CalibrationEndsEarly
  refine ⟨fun c s h => ?_, fun s hheld ha => ⟨fun hl => ?_, fun hl => ?_⟩⟩
  · have hexec : exec (.calCancel c) s = .next (replied c (calCancel (consumed s)).code
        (calCancel (consumed s)).fields (calCancel (consumed s)).state) := by
      change execCalCancel c s = _
      rw [execCalCancel, takeCommand_quiet h]
    rw [hexec]
    refine ⟨fun ha => ⟨_, _, _, withQuality_quality s.cal.hits s.cal, ?_⟩, fun ha => ?_⟩
    · rw [calCancel, if_pos (by exact ha)]
      rfl
    · rw [calCancel, if_neg (by rw [show (consumed s).cal.active = false from ha]; decide)]
      rfl
  · have hlimit : s.cal.limit = s.cal.elapsed + 1 := hl.symm
    refine ⟨_, _, _, withQuality_quality s.cal.hits s.cal, ?_, endPeriod s, exec_timebaseAdvance hheld, ?_⟩
    · change execCalTimeout s = _
      rw [execCalTimeout, if_pos (by rw [hheld, ha, hlimit]; simp), expireCalibration, hlimit]
      rfl
    · rw [endPeriod_cal_of_limit ha hlimit.le, ← hlimit]
      rfl
  · have hnot : ¬ s.cal.limit ≤ s.cal.elapsed + 1 := Nat.not_le.mpr hl
    change execCalTimeout s = _
    rw [execCalTimeout, decide_eq_false hnot, Bool.and_false]
    rfl

/-! ## The end of a table's update -/

theorem Attn.raise_flag_of_flag {a : Attn} (d : List Field) (h : a.flag = true) : (a.raise d).flag = true := by
  rw [Attn.raise]
  split
  · rfl
  · exact h

/-- A flag that is set stays set over a raise. -/
theorem raise_keeps_flag {n : Fin 12} {s : State} (k : AttnKind) (d : List Field)
    (h : (s.command.attns.get n).flag = true) : ((raise k d s).command.attns.get n).flag = true := by
  rw [raise_attns, Bank.get_set]
  split
  · rename_i hn
    rw [← hn]
    exact Attn.raise_flag_of_flag d h
  · exact h

section PeriodEvents
variable {n : Fin 8} {s : State}

theorem takePeriodEvent_table_of_ne {e : PeriodEvent} (h : e ≠ .updateEnd n) :
    (takePeriodEvent e s).tables.get n = s.tables.get n := by
  cases e with
  | calTimeout => rfl
  | updateEnd t =>
    have hne : t ≠ n := fun ht => h (by rw [ht])
    rw [takePeriodEvent]
    split
    · rw [endUpdate, raise_tables, State.setTable_tables, Bank.get_set, if_neg hne.symm]
    · rfl

theorem takePeriodEvent_of_done {m : Entries} (h : (s.tables.get n).updateDone 500 = some m) :
    takePeriodEvent (.updateEnd n) s = endUpdate n m s := by
  rw [takePeriodEvent, show Config.updatePeriods = 500 from rfl, h]

theorem endUpdate_get_self (m : Entries) :
    (endUpdate n m s).tables.get n = { phase := .loaded, entries := m } := by
  rw [endUpdate, raise_tables, State.setTable_tables, Bank.get_set_self]

theorem takePeriodEvent_enables (e : PeriodEvent) (s : State) : SameEnables s (takePeriodEvent e s) := by
  cases e with
  | updateEnd t =>
    rw [takePeriodEvent]
    split
    · exact raise_enables .table _ (s.setTable t _)
    · exact fun _ => rfl
  | calTimeout => exact raise_enables .cal _ { s with cal := s.cal.expired }

theorem takePeriodEvent_keeps_flag (e : PeriodEvent) {k : Fin 12}
    (h : (s.command.attns.get k).flag = true) :
    ((takePeriodEvent e s).command.attns.get k).flag = true := by
  cases e with
  | updateEnd t =>
    rw [takePeriodEvent]
    split
    · exact raise_keeps_flag (s := s.setTable t _) .table _ h
    · exact h
  | calTimeout => exact raise_keeps_flag (s := { s with cal := s.cal.expired }) .cal _ h

theorem takePeriodEvents_keeps_flag (fuel : Nat) (es : List PeriodEvent) {k : Fin 12}
    (h : (s.command.attns.get k).flag = true) :
    ((takePeriodEvents fuel es s).command.attns.get k).flag = true := by
  induction fuel generalizing es s with
  | zero => exact h
  | succ fuel ih =>
    rw [takePeriodEvents]
    split
    · exact h
    · rename_i e others c _
      exact ih others (takePeriodEvent_keeps_flag e (s := { s with choices := c }) h)

/-- A table whose update is not due is left as it is. -/
theorem takePeriodEvents_table_of_none (fuel : Nat) (es : List PeriodEvent)
    (h : (s.tables.get n).updateDone 500 = none) :
    (takePeriodEvents fuel es s).tables.get n = s.tables.get n := by
  induction fuel generalizing es s with
  | zero => rfl
  | succ fuel ih =>
    rw [takePeriodEvents]
    split
    · rfl
    · rename_i e others c _
      have hsame : (takePeriodEvent e { s with choices := c }).tables.get n = s.tables.get n := by
        by_cases he : e = .updateEnd n
        · rw [he, takePeriodEvent, show Config.updatePeriods = 500 from rfl]
          change ((match (s.tables.get n).updateDone 500 with
            | some m => endUpdate n m { s with choices := c }
            | none => { s with choices := c }) : State).tables.get n = _
          rw [h]
        · exact takePeriodEvent_table_of_ne (s := { s with choices := c }) he
      rw [ih others (by rwa [hsame]), hsame]

/-- A table whose update is due takes the merged entries, and TABLE is raised (R55, R59). -/
theorem takePeriodEvents_table_of_due {fuel : Nat} {es : List PeriodEvent} {m : Entries}
    (hfuel : es.length ≤ fuel) (hmem : PeriodEvent.updateEnd n ∈ es)
    (h : (s.tables.get n).updateDone 500 = some m) :
    (takePeriodEvents fuel es s).tables.get n = { phase := .loaded, entries := m } ∧
      ((s.command.attns.get AttnKind.table.code).enable = true →
        ((takePeriodEvents fuel es s).command.attns.get AttnKind.table.code).flag = true) := by
  induction fuel generalizing es s with
  | zero =>
    rw [List.length_eq_zero_iff.mp (Nat.le_zero.mp hfuel)] at hmem
    cases hmem
  | succ fuel ih =>
    rw [takePeriodEvents]
    split
    · rename_i hnone
      rw [choose_eq_none hnone] at hmem
      cases hmem
    · rename_i e others c hchoose
      have hperm := choose_perm hchoose
      by_cases he : e = .updateEnd n
      · rw [he, takePeriodEvent_of_done (s := { s with choices := c }) h]
        have hget := endUpdate_get_self (n := n) (s := { s with choices := c }) m
        refine ⟨?_, fun hon => takePeriodEvents_keeps_flag _ _ ?_⟩
        · rw [takePeriodEvents_table_of_none _ _ (by rw [hget]; rfl), hget]
        · exact (raise_flag (k := .table) (s := State.setTable { s with choices := c } n _) hon _).1
      · have hrest : PeriodEvent.updateEnd n ∈ others :=
          (List.mem_cons.mp (hperm.mem_iff.mpr hmem)).resolve_left (Ne.symm he)
        have hlen : others.length ≤ fuel := by
          have := hperm.length_eq
          rw [List.length_cons] at this
          omega
        have hsame := takePeriodEvent_table_of_ne (s := { s with choices := c }) he
        obtain ⟨htable, hflag⟩ := ih hlen hrest (s := takePeriodEvent e { s with choices := c })
          (by rw [hsame]; exact h)
        refine ⟨htable, fun hon => hflag ?_⟩
        rw [takePeriodEvent_enables e { s with choices := c }]
        exact hon

end PeriodEvents

theorem endMarkerPeriod_tables (s : State) : (endMarkerPeriod s).tables = s.tables := by
  obtain ⟨_, _, h⟩ := endMarkerPeriod_frame s
  rw [h]

theorem endMarkerPeriod_command (s : State) : (endMarkerPeriod s).command = s.command := by
  obtain ⟨_, _, h⟩ := endMarkerPeriod_frame s
  rw [h]

theorem advanced_table (s : State) (n : Fin 8) :
    (advanced s).tables.get n = (s.tables.get n).countPeriod := by
  rw [(advanced_runs s).moves.same.tables]
  exact Bank.get_map _ _ _

theorem advanced_enables (s : State) : SameEnables s (advanced s) := fun k =>
  (advanced_runs s).moves.enables k

theorem updateDone_of_updating {x : Table} {c : Nat} {m : Entries} (h : x.phase = .updating c m) (n : Nat) :
    x.updateDone n = if n ≤ c then some m else none := by
  rw [Table.updateDone, h]

theorem countPeriod_of_updating {x : Table} {c : Nat} {m : Entries} (h : x.phase = .updating c m) :
    x.countPeriod = { x with phase := .updating (c + 1) m } := by
  rw [Table.countPeriod, h]

theorem countPeriod_of_idle {x : Table} (h : x.isUpdating = false) :
    x.countPeriod = x ∧ ∀ n, x.updateDone n = none := by
  rw [Table.isUpdating] at h
  cases hp : x.phase with
  | updating c m => rw [hp] at h; cases h
  | nominal | loaded => exact ⟨by rw [Table.countPeriod, hp], fun n => by rw [Table.updateDone, hp]⟩

/-- Settles O35: what a table's update comes to over a period's end, and the row of its end. -/
theorem updateLasts500Periods : Obligations.UpdateLasts500Periods := by
  unfold Obligations.UpdateLasts500Periods
  refine ⟨fun s t n hheld hstep => ?_, fun s n k merged hheld hp => ⟨fun hk => ?_, fun hk => ?_⟩⟩
  · rw [exec_timebaseAdvance hheld] at hstep
    obtain rfl := Host.Outcome.next.inj hstep
    rw [endPeriod_eq, endMarkerPeriod_tables, endMarkerPeriod_command]
    have hget := advanced_table s n
    refine ⟨fun k merged hp => ⟨fun hk => ?_, fun hk => ?_⟩, fun hidle => ?_⟩
    · rw [countPeriod_of_updating hp] at hget
      rw [takePeriodEvents_table_of_none, hget]
      rw [hget, updateDone_of_updating rfl, if_neg (Nat.not_le.mpr hk)]
    · rw [countPeriod_of_updating hp] at hget
      obtain ⟨htable, hflag⟩ := takePeriodEvents_table_of_due (s := advanced s) (n := n) (m := merged)
        (le_refl _) (mem_periodEvents_updateEnd (by rw [hget]) hk.ge)
        (by rw [hget, updateDone_of_updating rfl, if_pos hk.ge])
      exact ⟨htable, fun hon => hflag ((advanced_enables s _).trans hon)⟩
    · obtain ⟨hcount, hdone⟩ := countPeriod_of_idle hidle
      rw [hcount] at hget
      rw [takePeriodEvents_table_of_none _ _ (by rw [hget, hdone]), hget]
  · change execTableUpdateEnd n s = _
    rw [execTableUpdateEnd, updateDone_of_updating hp, if_pos (by change 499 ≤ k; omega)]
    change Host.Outcome.next (if s.held = true then s else endUpdate n merged s) = _
    rw [if_neg (by rw [hheld]; decide)]
    rfl
  · change execTableUpdateEnd n s = _
    rw [execTableUpdateEnd, updateDone_of_updating hp, if_neg (by change ¬ 499 ≤ k; omega)]

/-! ## TABLE-READ -/

theorem exec_tableRead {c : Cell} {s : State} (h : TakesQuietly s c) (a : ReadArg) (i : Nat) :
    exec (.tableRead c a i) s =
      .next (replied c (tableRead a i (consumed s)).code (tableRead a i (consumed s)).fields
        (tableRead a i (consumed s)).state) := by
  change execTableRead c a i s = _
  rw [execTableRead, takeCommand_quiet h]

theorem entryField_eq (x : Table) (k : Nat) :
    x.entryField k = if h : k < 256 then num 12 (x.entries.get ⟨k, h⟩).toNat else num 12 0 := by
  rw [Table.entryField]
  split
  · rename_i j hj
    rw [inRange] at hj
    split at hj
    · rw [dif_pos ‹_›, ← Option.some.inj hj]
    · cases hj
  · rename_i hnone
    rw [dif_neg fun hlt => ?_]
    rw [inRange_of_lt hlt] at hnone
    cases hnone

theorem phase_code_of_idle {x : Table} (h : x.isUpdating = false) :
    x.phase.code = if x.phase = .loaded then 2 else 0 := by
  rw [Table.isUpdating] at h
  cases hp : x.phase with
  | updating c m => rw [hp] at h; cases h
  | nominal => rfl
  | loaded => rfl

theorem phase_code_of_updating {x : Table} (h : x.isUpdating = true) : x.phase.code = 1 := by
  rw [Table.isUpdating] at h
  cases hp : x.phase with
  | updating c m => rfl
  | nominal | loaded => rw [hp] at h; cases h

theorem tableRead_lin (t : Fin 8) (i : Fin 256) (s : State) :
    let x := s.tables.get t
    (x.isUpdating = true →
      tableRead (.lin t) i s = .still s .busy [num 2 x.phase.code, num 12 0, num 12 0, num 12 0]) ∧
    (x.isUpdating = false →
      tableRead (.lin t) i s = .still s .done
        [num 2 x.phase.code, x.entryField i, x.entryField (i + 1), x.entryField (i + 2)]) := by
  intro x
  rw [tableRead, inRange_val, inRange_val]
  exact ⟨fun h => if_pos h, fun h => if_neg (by rw [h]; decide)⟩

theorem tableRead_lin_of_range {t i : Nat} (h : 8 ≤ t ∨ 256 ≤ i) (s : State) :
    tableRead (.lin t) i s = .still s .range := by
  rw [tableRead]
  rcases h with h | h
  · rw [inRange_of_le h]
  · rw [inRange_of_le h]
    cases inRange 8 t <;> rfl

theorem part_of_bin (g : Calibration) (i : Fin 256) :
    g.part i = some [num 21 (g.bins.get i), num 3 g.outcome.code] := by
  unfold Calibration.part
  rw [inRange_val]

theorem part_of_le (g : Calibration) {i : Nat} (h : 260 ≤ i) : g.part i = none := by
  obtain ⟨j, rfl⟩ := Nat.exists_eq_add_of_le' h
  unfold Calibration.part
  rw [inRange_of_le (by omega)]
  rfl

/-- Settles O36: TABLE-READ's rule, target by target. -/
theorem tableReadReports : Obligations.TableReadReports := by
  unfold Obligations.TableReadReports
  intro c s h
  refine ⟨fun t i => ⟨fun hidle => ?_, fun hup => ?_⟩, fun t i hout => ?_, fun n i => ?_, fun i => ?_,
    exec_tableRead h _ _, exec_tableRead h _ _, exec_tableRead h _ _, exec_tableRead h _ _,
    fun i hi => ?_⟩
  · rw [exec_tableRead h, (tableRead_lin t i (consumed s)).2 hidle, phase_code_of_idle (by exact hidle),
      entryField_eq, entryField_eq, entryField_eq]
    rfl
  · rw [exec_tableRead h, (tableRead_lin t i (consumed s)).1 hup, phase_code_of_updating (by exact hup)]
    rfl
  · rw [exec_tableRead h, tableRead_lin_of_range hout]
    rfl
  · exact exec_tableRead h _ _
  · rw [exec_tableRead h, tableRead, part_of_bin]
    rfl
  · rw [exec_tableRead h, tableRead, part_of_le _ hi]
    rfl

end Sys2Proof.Machine
end

section
/-!
SUPPORT. The Result Queue, results and their records (chapters 8 and 9).
-/

namespace Sys2Proof.Machine

/-! ## An offer to the Result Queue -/

section Offer
variable {r : QueueRecord} {s : State}

theorem offer_of_room (hg : s.results.gaps = 0) (h : s.results.occupancy + r.size ≤ 512) :
    offer r s = appendRecord r s := by
  rw [offer, if_pos hg]
  exact if_pos h

theorem offer_of_full (hg : s.results.gaps = 0) (h : 512 < s.results.occupancy + r.size) :
    offer r s = dropRecord s := by
  rw [offer, if_pos hg]
  exact if_neg (Nat.not_le.mpr h)

theorem offer_of_gap_room (hg : s.results.gaps ≠ 0) (h : s.results.occupancy + 1 + r.size ≤ 512) :
    offer r s = appendRecord r (appendGap s) := by
  rw [offer, if_neg hg]
  exact if_pos h

theorem offer_of_gap_only (hg : s.results.gaps ≠ 0) (h : s.results.occupancy + 1 ≤ 512)
    (hfull : 512 < s.results.occupancy + 1 + r.size) : offer r s = dropRecord (appendGap s) := by
  rw [offer, if_neg hg]
  exact (if_neg (Nat.not_le.mpr hfull)).trans (if_pos h)

theorem offer_of_gap_full (hg : s.results.gaps ≠ 0) (h : 512 < s.results.occupancy + 1) :
    offer r s = dropRecord s := by
  rw [offer, if_neg hg]
  exact (if_neg (by change ¬ _ ≤ 512; omega)).trans (if_neg (Nat.not_le.mpr h))

end Offer

theorem appendGap_results (s : State) :
    (appendGap s).results =
      { s.results with
        records := s.results.records ++ [.gap s.results.gaps s.results.gapLimit], gaps := 0
        gapLimit := false } := by
  rw [appendGap, appendRecord_results]

/-- A drop behind a GAP record is the first of a new gap (R139, R140). -/
theorem dropRecord_of_no_gap {s : State} (hg : s.results.gaps = 0) (hl : s.results.gapLimit = false) :
    dropRecord s =
      raise .gap [num 16 1] { s with results := { s.results with gaps := 1, gapLimit := false } } := by
  unfold dropRecord
  rw [hg, hl]
  rfl

/-- An append that brings the occupancy to the threshold raises HIGH (R142). -/
theorem appendRecord_of_crossing {r : QueueRecord} {s : State}
    (h : s.results.occupancy < s.results.threshold ∧
      s.results.threshold ≤ s.results.occupancy + r.size) :
    appendRecord r s =
      raise .high [num 10 (s.results.occupancy + r.size)]
        { s with results := { s.results with records := s.results.records ++ [r] } } := if_pos h

theorem appendRecord_of_not_crossing {r : QueueRecord} {s : State}
    (h : ¬ (s.results.occupancy < s.results.threshold ∧
      s.results.threshold ≤ s.results.occupancy + r.size)) :
    appendRecord r s = { s with results := { s.results with records := s.results.records ++ [r] } } :=
  if_neg h

/-- Settles O52: the four rooms that a record and a GAP record ahead of it can find. -/
theorem offerToTheResultQueue : Obligations.OfferToTheResultQueue := by
  unfold Obligations.OfferToTheResultQueue
  intro r s hsound q o appended dropped noted gap
  have hgapOcc : (appendGap s).results.occupancy = o + 1 := appendGap_occupancy s
  have hgapThreshold : (appendGap s).results.threshold = q.threshold := by rw [appendGap_results]
  refine ⟨fun hg => ⟨fun hfit => offer_of_room hg hfit, fun hfull => ?_⟩, fun hg =>
    ⟨fun hfit => ⟨?_, fun hon hlow hhigh => ?_⟩, fun hfit hfull => ?_, fun hfull => ?_⟩⟩
  · rw [offer_of_full hg hfull]
    refine dropRecord_of_no_gap hg ?_
    rw [← Bool.not_eq_true]
    intro hl
    have hlimit := hsound.2.2.2.1 hl
    rw [hg] at hlimit
    cases hlimit
  · have happended : ∀ xs n u, (appended xs n u).results =
        { u.results with records := u.results.records ++ xs } := fun xs n u => by
      dsimp only [appended]
      split <;> rfl
    rw [offer_of_gap_room hg.ne' hfit, appendRecord_results, appendGap_results, happended]
    exact congrArg (fun rs => ({ noted.results with records := rs } : ResultQueue))
      (List.append_assoc _ [gap] [r])
  · rw [offer_of_gap_room hg.ne' hfit]
    by_cases hfirst : q.threshold ≤ o + 1
    · have hraise : appendGap s = _ := appendRecord_of_crossing (r := gap) (s := noted) ⟨hlow, hfirst⟩
      rw [if_pos hfirst, appendRecord_of_not_crossing (by rw [hgapOcc, hgapThreshold]; omega), hraise]
      exact raise_flag (k := .high) (s := { noted with results := _ }) hon _
    · rw [if_neg hfirst, appendRecord_of_crossing (by rw [hgapOcc, hgapThreshold]; omega), hgapOcc]
      exact raise_flag (k := .high) (s := { appendGap s with results := _ })
        ((appendGap_enables s _).trans hon) _
  · rw [offer_of_gap_only hg.ne' hfit hfull, dropRecord_of_no_gap (by rw [appendGap_results])
      (by rw [appendGap_results])]
    rfl
  · rw [offer_of_gap_full hg.ne' (by rw [show s.results.occupancy = 512 from hfull]; decide), dropRecord,
      countUp_eq_min]
    rfl

/-! ## The values of records -/

theorem rateSpan_of_not_pos {t0 t1 : Stamp} (h : stampDiff t1 t0 ≤ 0) :
    rateSpan t0 t1 = (2 ^ 58 - 1, true) := if_neg (Int.not_lt.mpr h)

theorem Slot.emitRate_body (i : Fin 8) (t1 : Stamp) (x : Slot) :
    let span := (rateSpan (x.run.t0.getD 0) t1).1
    let np := x.run.n * x.run.prescale
    (x.emitRate i t1).2.body =
      .rate x.run.prescale x.run.n (x.run.t0.getD 0) t1 (frequency np span).1 (meanPeriod np span) := rfl

theorem intervalMean_of_pos {sum count : Nat} (h : 1 ≤ count) :
    intervalMean sum count = (2 * sum + count) / (2 * count) := if_neg (by omega)

/-- The net count of counts within their width is their difference (R125). -/
theorem netCount_eq {a b : Nat} (ha : a ≤ 2 ^ 40 - 1) (hb : b ≤ 2 ^ 40 - 1) :
    netCount a b = (a : Int) - (b : Int) := by
  rw [netCount, min_eq_right (by omega), max_eq_right (by omega)]

/-- Settles O50: the fields of the three kinds of record. -/
theorem recordsCarryTheValues : Obligations.RecordsCarryTheValues := by
  unfold Obligations.RecordsCarryTheValues
  refine fun i t x => ⟨fun t0 ht hpos => ?_, fun t0 ht hneg => ?_, fun mn mx hmin hmax hc => ?_,
    fun hc hmin hmax hsum hsamples => ⟨?_, rfl, ?_⟩, fun o ho ha hb => ?_⟩
  · intro span np
    rw [Slot.emitRate_body, ht, Option.getD_some, rateSpan_of_pos hpos]
    exact ⟨rfl, rfl⟩
  · rw [Slot.emitRate_saturated, Slot.emitRate_body, ht, Option.getD_some, rateSpan_of_not_pos hneg]
    exact ⟨by simp, rfl⟩
  · change RecordBody.interval x.run.count (x.run.min.getD 0) (x.run.max.getD 0) x.run.sum
      (intervalMean x.run.sum x.run.count) t = _
    rw [hmin, hmax, intervalMean_of_pos hc]
    rfl
  · change RecordBody.interval x.run.count (x.run.min.getD 0) (x.run.max.getD 0) x.run.sum
      (intervalMean x.run.sum x.run.count) t = _
    rw [hmin, hmax, hc, hsum]
    rfl
  · change (x.run.flags.short || decide (x.run.count < x.config.samples)) = true
    rw [decide_eq_true (by omega), Bool.or_true]
  · change RecordBody.total x.run.countA x.run.countB (netCount x.run.countA x.run.countB)
      (x.run.tOpen.getD 0) t = _
    rw [ho, netCount_eq ha hb]
    rfl

/-! ## A slot event on the rest of the state -/

theorem startingRequest_congr {s t : State} (hslots : t.slots = s.slots)
    (htime : t.timebase = s.timebase) (held : Bool) (v : MarkerSource) :
    startingRequest t held v = startingRequest s held v := by
  cases v <;> simp only [startingRequest, hslots, htime]

theorem publish_marker {report : Bool} {r : Record} {s : State} {k : Fin 4} :
    (publish report r s).markers.get k =
      if (s.markers.get k).source = .done r.slot then (s.markers.get k).pulse s.markerTime
      else s.markers.get k := by
  have hsame : ∀ u : State, u.markers = s.markers → u.markerTime = s.markerTime →
      (signalDone r.slot u).markers.get k =
        if (s.markers.get k).source = .done r.slot then (s.markers.get k).pulse s.markerTime
        else s.markers.get k := fun u hm ht => by
    rw [signalDone, Bank.get_map, hm, ht]
  refine hsame (raise .slot [num 3 r.slot] (if report then offer (.result r) s else s)) ?_ ?_
  · rw [raise_markers]
    split
    · exact offer_markers _ _
    · rfl
  · rw [raise_markerTime]
    split
    · exact (Moves.refl.offer (.result r)).same.markerTime
    · rfl

theorem foldl_publish_marker_of_ne {report : Bool} {rs : List Record} {s : State} {k : Fin 4}
    (h : ∀ r ∈ rs, (s.markers.get k).source ≠ .done r.slot) :
    (rs.foldl (fun s r => publish report r s) s).markers.get k = s.markers.get k := by
  induction rs generalizing s with
  | nil => rfl
  | cons r rs ih =>
    have hsame : (publish report r s).markers.get k = s.markers.get k := by
      rw [publish_marker, if_neg (h r List.mem_cons_self)]
    rw [List.foldl_cons, ih fun q hq => by
      rw [hsame]
      exact h q (List.mem_cons_of_mem _ hq), hsame]

theorem foldl_publish_same (report : Bool) (rs : List Record) (i : Fin 8) (y : Slot) (s : State) :
    SameBase s (rs.foldl (fun s r => publish report r s) (s.setSlot i y)) :=
  (show SameBase s (s.setSlot i y) from
    ⟨rfl, rfl, rfl, rfl, rfl, rfl, rfl, rfl, rfl, rfl, rfl, rfl, rfl, rfl, rfl⟩).trans
    (Moves.foldl (fun s r => publish_moves report r s) rs _).same

theorem refreshSlotMarkers_same (i : Fin 8) (s : State) : SameBase s (refreshSlotMarkers i s) :=
  ⟨rfl, rfl, rfl, rfl, rfl, rfl, rfl, rfl, rfl, rfl, rfl, rfl, rfl, rfl, rfl⟩

theorem applySlot_same (i : Fin 8) (out : SlotOut) (s : State) : SameBase s (applySlot i out s) :=
  (foldl_publish_same _ _ i _ s).trans (refreshSlotMarkers_same i _)

theorem refreshSlotMarkers_marker (i : Fin 8) (s : State) (k : Fin 4) :
    let m := s.markers.get k
    (refreshSlotMarkers i s).markers.get k =
      if m.source.follows i then m.ask s.markerTime (startingRequest s m.held m.source) else m :=
  Bank.get_map _ _ _

/-- A slot event's markers: those that follow the slot take its request from the slot as the event
leaves it (R149); the results of the slot have signalled the rest (R152). -/
theorem applySlot_marker (i : Fin 8) (out : SlotOut) (s : State) (k : Fin 4) :
    let m := (out.2.foldl (fun s r => publish out.1.config.report r s) (s.setSlot i out.1)).markers.get k
    (applySlot i out s).markers.get k =
      if m.source.follows i then
        m.ask s.markerTime (startingRequest (applySlot i out s) m.held m.source)
      else m := by
  intro m
  refine (refreshSlotMarkers_marker i _ k).trans ?_
  rw [(foldl_publish_same out.1.config.report out.2 i out.1 s).markerTime]
  rfl

/-! ## The bytes of a record -/

/-- The record without the bytes past its last field (R163). -/
theorem Record.segment_eq (r : Record) (seg : Nat) (h : packedWidth r.fields ≤ 56 * r.body.cells) :
    r.segment seg =
      packedValue r.fields * 2 ^ (56 * r.body.cells - packedWidth r.fields) /
        2 ^ (56 * (r.body.cells - 1 - seg)) % 2 ^ 56 := by
  rw [Record.segment, packInto_of_fits h]

theorem packedValue_cons_of_lt {w v : Nat} (h : v < 2 ^ w) (fs : List Field) :
    packedValue (num w v :: fs) = v * 2 ^ packedWidth fs + packedValue fs := by
  rw [packedValue, num, Nat.mod_eq_of_lt h]

theorem packedValue_cons_bit (b : Bool) (fs : List Field) :
    packedValue (bit b :: fs) = b.toNat * 2 ^ packedWidth fs + packedValue fs := by
  rw [packedValue, bit, Nat.mod_eq_of_lt (by cases b <;> decide)]

theorem packedValue_nil : packedValue [] = 0 := rfl

theorem packedWidth_nil : packedWidth [] = 0 := rfl

theorem packedWidth_cons_num (w v : Nat) (fs : List Field) :
    packedWidth (num w v :: fs) = w + packedWidth fs := rfl

theorem packedWidth_cons_bit (b : Bool) (fs : List Field) :
    packedWidth (bit b :: fs) = 1 + packedWidth fs := rfl

theorem flagsWord_eq (kind : SlotKind) (values : Bool) (f : RunFlags) :
    flagsWord kind values f =
      kind.code * 2 ^ 14 + values.toNat * 2 ^ 11 + f.stopped.toNat * 2 ^ 10 + f.noSignal.toNat * 2 ^ 9 +
        f.closeLate.toNat * 2 ^ 8 + f.short.toNat * 2 ^ 7 + f.epochStep.toNat * 2 ^ 6 +
        f.gap.toNat * 2 ^ 5 + f.nominal.toNat * 2 ^ 4 + f.unepoched.toNat * 2 ^ 3 +
        f.reorder.toNat * 2 ^ 2 + f.lateEdge.toNat * 2 ^ 1 + f.saturated.toNat := by
  have hkind : kind.code < 2 ^ 2 := by cases kind <;> decide
  rw [flagsWord, RunFlags.fields]
  simp only [List.cons_append, List.nil_append, packedValue_cons_bit, packedValue_cons_of_lt hkind,
    packedValue_cons_of_lt (show 0 < 2 ^ 2 by decide), packedWidth_cons_num, packedWidth_cons_bit, packedWidth_nil,
    packedValue_nil]
  omega

theorem flagsWord_lt (kind : SlotKind) (values : Bool) (f : RunFlags) :
    flagsWord kind values f < 2 ^ 16 := packedValue_lt _

/-- The bytes ahead of a record's body: sequence number, gate index, kind and flags (Table 11-4). -/
theorem packedValue_record (r : Record) (h : r.gateIndex < 2 ^ 32) :
    packedValue r.fields =
      (r.seq.toNat * 2 ^ 48 + r.gateIndex * 2 ^ 16 + flagsWord r.body.kind r.values r.flags) *
          2 ^ packedWidth r.body.fields +
        packedValue r.body.fields := by
  rw [Record.fields, packedValue_append, packedValue_cons_of_lt r.seq.isLt, packedValue_cons_of_lt h,
    packedValue_cons_of_lt (flagsWord_lt ..)]
  simp only [packedWidth, packedValue, num]
  ring

theorem packedWidth_record (r : Record) : packedWidth r.fields = 64 + packedWidth r.body.fields := by
  rw [Record.fields, packedWidth_append]
  rfl

theorem packedValue_rate {p n f q : Nat} (t0 t1 : Stamp) (hp : p < 2 ^ 24) (hn : n < 2 ^ 40)
    (hf : f < 2 ^ 64) (hq : q < 2 ^ 72) :
    packedValue (RecordBody.rate p n t0 t1 f q).fields =
      p * 2 ^ 304 + n * 2 ^ 264 + t0.toNat * 2 ^ 200 + t1.toNat * 2 ^ 136 + f * 2 ^ 72 + q := by
  have h0 : t0.toNat < 2 ^ 64 := t0.isLt.trans (by decide)
  have h1 : t1.toNat < 2 ^ 64 := t1.isLt.trans (by decide)
  simp only [RecordBody.fields, packedValue_cons_of_lt, hp, hn, h0, h1, hf, hq, packedWidth_cons_num,
    packedWidth_nil, packedValue_nil]
  simp only [Nat.reduceAdd, Nat.add_zero, Nat.add_assoc, pow_zero, Nat.mul_one]

theorem packedValue_interval {count least most sum mean : Nat} (stop : Stamp) (hc : count < 2 ^ 16)
    (hl : least < 2 ^ 56) (hm : most < 2 ^ 56) (hs : sum < 2 ^ 64) (hmean : mean < 2 ^ 56) :
    packedValue (RecordBody.interval count least most sum mean stop).fields =
      count * 2 ^ 296 + least * 2 ^ 240 + most * 2 ^ 184 + sum * 2 ^ 120 + mean * 2 ^ 64 +
        stop.toNat := by
  have h0 : stop.toNat < 2 ^ 64 := stop.isLt.trans (by decide)
  simp only [RecordBody.fields, packedValue_cons_of_lt, hc, hl, hm, h0, hs, hmean,
    packedWidth_cons_num, packedWidth_nil, packedValue_nil]
  simp only [Nat.reduceAdd, Nat.add_zero, Nat.add_assoc, pow_zero, Nat.mul_one]

theorem signed_eq (w : Nat) (v : Int) : signed w v = num w (v % 2 ^ w).toNat := by
  rw [signed, num, BitVec.toNat_ofInt]
  push_cast
  rfl

theorem packedValue_total {countA countB : Nat} (net : Int) (opened closed : Stamp)
    (ha : countA < 2 ^ 40) (hb : countB < 2 ^ 40) :
    packedValue (RecordBody.total countA countB net opened closed).fields =
      countA * 2 ^ 216 + countB * 2 ^ 176 + (net % 2 ^ 48).toNat * 2 ^ 128 + opened.toNat * 2 ^ 64 +
        closed.toNat := by
  have h0 : opened.toNat < 2 ^ 64 := opened.isLt.trans (by decide)
  have h1 : closed.toNat < 2 ^ 64 := closed.isLt.trans (by decide)
  have hnet : (net % 2 ^ 48).toNat < 2 ^ 48 := by omega
  simp only [RecordBody.fields, signed_eq, packedValue_cons_of_lt, ha, hb, h0, h1, hnet,
    packedWidth_cons_num, packedWidth_nil, packedValue_nil]
  simp only [Nat.reduceAdd, Nat.add_zero, Nat.add_assoc, pow_zero, Nat.mul_one]

theorem packedWidth_rate (p n f q : Nat) (t0 t1 : Stamp) :
    packedWidth (RecordBody.rate p n t0 t1 f q).fields + 0 = 328 := by
  simp only [RecordBody.fields, packedWidth_cons_num, packedWidth_nil, Nat.reduceAdd]

theorem packedWidth_interval (count least most sum mean : Nat) (stop : Stamp) :
    packedWidth (RecordBody.interval count least most sum mean stop).fields + 16 = 328 := by
  simp only [RecordBody.fields, packedWidth_cons_num, packedWidth_nil, Nat.reduceAdd]

theorem packedWidth_total (countA countB : Nat) (net : Int) (opened closed : Stamp) :
    packedWidth (RecordBody.total countA countB net opened closed).fields + 16 = 272 := by
  simp only [RecordBody.fields, signed_eq, packedWidth_cons_num, packedWidth_nil, Nat.reduceAdd]

/-- A segment of a record whose body, with `pad` bits behind it, fills the record's cells (R163). -/
theorem Record.segment_of_body {r : Record} {pad room : Nat} (seg : Nat) (h : r.gateIndex < 2 ^ 32)
    (hbody : packedWidth r.body.fields + pad = room) (hroom : 64 + room = 56 * r.body.cells) :
    r.segment seg =
      ((r.seq.toNat * 2 ^ 48 + r.gateIndex * 2 ^ 16 + flagsWord r.body.kind r.values r.flags) *
          2 ^ room + packedValue r.body.fields * 2 ^ pad) /
        2 ^ (56 * (r.body.cells - 1 - seg)) % 2 ^ 56 := by
  have hpad : 56 * r.body.cells - packedWidth r.fields = pad := by
    rw [packedWidth_record]
    omega
  rw [Record.segment_eq r seg (by rw [packedWidth_record]; omega), hpad, packedValue_record r h,
    Nat.add_mul, Nat.mul_assoc _ (2 ^ _), ← pow_add, hbody]

/-! ## A result -/

theorem applySlot_single (i : Fin 8) (y : Slot) (r : Record) (s : State) :
    applySlot i (y, [r]) s =
      refreshSlotMarkers i (signalDone r.slot (raise .slot [num 3 r.slot]
        (if y.config.report then offer (.result r) (s.setSlot i y) else s.setSlot i y))) := rfl

/-- A result raises SLOT with the slot's number (R109). -/
theorem applySlot_slotFlag (i : Fin 8) (y : Slot) (r : Record) {s : State}
    (hon : (s.command.attns.get AttnKind.slot.code).enable = true) :
    let a := (applySlot i (y, [r]) s).command.attns.get AttnKind.slot.code
    a.flag = true ∧ a.detail = [num 3 r.slot] := by
  have hsame : SameEnables (s.setSlot i y)
      (if y.config.report then offer (.result r) (s.setSlot i y) else s.setSlot i y) := by
    split
    · exact offer_enables _ _
    · exact fun _ => rfl
  rw [applySlot_single]
  exact raise_flag ((hsame _).trans hon) _

theorem Marker.pulse_request (now : Nat) (m : Marker) :
    (m.pulse now).request = true ∧ (m.pulse now).pulseEnd = some (now + max m.width 1) ∧
      (m.pulse now).source = m.source := by
  rw [Marker.pulse, Marker.act_frame]
  exact ⟨rfl, rfl, rfl⟩

/-- A result signals the DONE markers of its slot (R152). -/
theorem applySlot_done {i : Fin 8} {y : Slot} {r : Record} {s : State} {k : Fin 4}
    (hr : r.slot = i) (hk : (s.markers.get k).source = .done i) :
    (applySlot i (y, [r]) s).markers.get k = (s.markers.get k).pulse s.markerTime := by
  have hpub : (publish y.config.report r (s.setSlot i y)).markers.get k =
      (s.markers.get k).pulse s.markerTime := by
    rw [publish_marker, hr]
    exact if_pos hk
  rw [applySlot_marker]
  change (if ((publish y.config.report r (s.setSlot i y)).markers.get k).source.follows i then _
    else (publish y.config.report r (s.setSlot i y)).markers.get k) = _
  rw [hpub, (Marker.pulse_request _ _).2.2, hk]
  rfl

theorem saturatedIf_false {f : RunFlags} {b : Bool} (h : b = false) : f.saturatedIf b = f := by
  rw [h, RunFlags.saturatedIf, Bool.or_false]

theorem saturatedIf_true {f : RunFlags} {b : Bool} (h : b = true) :
    f.saturatedIf b = { f with saturated := true } := by
  rw [h, RunFlags.saturatedIf, Bool.or_true]

/-- Settles O51: the slot after a result, the offer and its signals, and the record's bytes. -/
theorem resultLeavesItsSlot : Obligations.ResultLeavesItsSlot := by
  unfold Obligations.ResultLeavesItsSlot
  refine ⟨fun i values body x => ?_, fun s i y r hr => ?_, fun r seg hindex => ?_⟩
  · refine ⟨rfl, rfl, rfl, rfl, rfl, fun h => ?_, fun h => ?_, rfl, rfl, rfl, rfl, rfl, rfl⟩
    · exact saturatedIf_false (by rw [beq_eq_false_iff_ne]; exact h.ne)
    · exact saturatedIf_true (beq_iff_eq.mpr h)
  · have hsame := applySlot_same i (y, [r]) s
    refine ⟨?_, applySlot_slots _ _ _, fun hon => ?_, fun m hm => ?_, applySlot_queue _ _ _, hsame.plan,
      hsame.channels, hsame.timebase⟩
    · rw [applySlot_results_single]
      split <;> rfl
    · rw [← hr]
      exact applySlot_slotFlag _ y r hon
    · rw [applySlot_done hr hm]
      exact ⟨(Marker.pulse_request _ _).1, (Marker.pulse_request _ _).2.1⟩
  · refine ⟨fun p n g q t0 t1 hbody hp hn hg hq hseg => ?_,
      fun count least most sum mean stop hbody hc hl hm hs hmean hseg => ?_,
      fun countA countB net opened closed hbody ha hb hseg => ?_⟩
    · rw [Record.segment_of_body (pad := 0) (room := 328) seg hindex (by rw [hbody]; exact packedWidth_rate ..)
        (by rw [hbody]; rfl), hbody, packedValue_rate t0 t1 hp hn hg hq, flagsWord_eq]
      refine congrArg (fun n => n / 2 ^ (56 * (6 - seg)) % 2 ^ 56) ?_
      simp only [pow_zero, Nat.mul_one, Nat.add_assoc]
      rfl
    · rw [Record.segment_of_body (pad := 16) (room := 328) seg hindex
        (by rw [hbody]; exact packedWidth_interval ..) (by rw [hbody]; rfl), hbody,
        packedValue_interval stop hc hl hm hs hmean, flagsWord_eq]
      refine congrArg (fun n => n / 2 ^ (56 * (6 - seg)) % 2 ^ 56) ?_
      simp only [Nat.add_mul, Nat.mul_assoc, ← pow_add, Nat.reduceAdd, Nat.add_assoc]
      rfl
    · rw [Record.segment_of_body (pad := 16) (room := 272) seg hindex
        (by rw [hbody]; exact packedWidth_total ..) (by rw [hbody]; rfl), hbody,
        packedValue_total net opened closed ha hb, flagsWord_eq]
      refine congrArg (fun n => n / 2 ^ (56 * (5 - seg)) % 2 ^ 56) ?_
      simp only [Nat.add_mul, Nat.mul_assoc, ← pow_add, Nat.reduceAdd, Nat.add_assoc]
      rfl

end Sys2Proof.Machine
end

section
/-!
SUPPORT. The Marker Outputs (chapter 10).
-/

namespace Sys2Proof.Machine

/-! ## The width rule -/

theorem Marker.wanted_eq (m : Marker) :
    m.wanted = if m.request = m.invert then PinLevel.low else .high := by
  rw [Marker.wanted]
  cases m.request <;> cases m.invert <;> rfl

theorem Marker.act_eq (now : Nat) (m : Marker) :
    m.act now =
      let wanted : PinLevel := if m.request = m.invert then .low else .high
      if wanted = m.pin then { m with resetHold := none }
      else if m.resetHold.getD (m.lastTransition + m.width) ≤ now then
        { m with pin := wanted, lastTransition := now, resetHold := none }
      else m := by
  rw [← Marker.wanted_eq]
  rfl

/-! ## The marker commands -/

section Commands
variable {α : Type} {s : State} {f : State → α → Marker → Marker}

theorem markerCommand_of_some (i : Fin 4) (v : α) :
    markerCommand i (some v) f s =
      ⟨s.setMarker i (f s v (s.markers.get i)), .done, (f s v (s.markers.get i)).fields⟩ := by
  rw [markerCommand, inRange_val]

theorem markerCommand_of_none (i : Fin 4) :
    markerCommand i none f s = .still s .range (s.markers.get i).fields := by
  rw [markerCommand, inRange_val]

theorem markerCommand_of_le {n : Nat} (h : 4 ≤ n) (v : Option α) :
    markerCommand n v f s = .still s .range := by
  rw [markerCommand, inRange_of_le h]

end Commands

section Rows
variable {c : Cell} {s : State} (h : TakesQuietly s c)
include h

theorem exec_markSetSource (n : Nat) (a : SourceArg) :
    let out := markerCommand n (sourceOf a) Marker.setSource (consumed s)
    exec (.markSetSource c n a) s = .next (replied c out.code out.fields out.state) := by
  change execMarkSetSource c n a s = _
  rw [execMarkSetSource, takeCommand_quiet h]

theorem exec_markSetInvert (n v : Nat) :
    let out := markerCommand n (flagOf v) Marker.setInvert (consumed s)
    exec (.markSetInvert c n v) s = .next (replied c out.code out.fields out.state) := by
  change execMarkSetInvert c n v s = _
  rw [execMarkSetInvert, takeCommand_quiet h]

theorem exec_markSetWidth (n w : Nat) :
    let out := markerCommand n (if w ≤ 65535 then some w else none) Marker.setWidth (consumed s)
    exec (.markSetWidth c n w) s = .next (replied c out.code out.fields out.state) := by
  change execMarkSetWidth c n w s = _
  rw [execMarkSetWidth, takeCommand_quiet h]
  rfl

theorem exec_markLevel (n v : Nat) :
    let out := markerCommand n ((flagOf v).map (!·)) Marker.setHeld (consumed s)
    exec (.markLevel c n v) s = .next (replied c out.code out.fields out.state) := by
  change execMarkLevel c n v s = _
  rw [execMarkLevel, takeCommand_quiet h]

end Rows

/-! ## The ranges of a source and its starting request -/

theorem Slot.gateOpen_iff (x : Slot) :
    x.gateOpen = true ↔ x.state = .opening ∨ x.state = .rateCounting ∨ x.state = .seekA ∨
      x.state = .seekB ∨ x.state = .totalCounting ∨ x.state = .held ∨
        (x.state = .closing ∧ x.run.pendingGate ≠ none) := by
  rw [Slot.gateOpen]
  cases hs : x.state <;> simp [Option.isSome_iff_ne_none]

theorem Slot.stepBit_iff (x : Slot) (b : Fin 4) :
    x.stepBit b = true ↔ x.state ≠ .idle ∧ (∃ f, x.config.gate = .plan f) ∧ x.run.stepEnd ≠ none ∧
      ∃ q : PlanStep, x.run.stepRecord = some q ∧ q.markers.getLsbD b.val = true := by
  rw [Slot.stepBit]
  split
  · next hidle => simp [hidle]
  · next hgate hend hstep hrun =>
    simp [hgate, hend, hstep]
    exact fun _ => hrun
  · next hrun hnone =>
    refine iff_of_false Bool.false_ne_true ?_
    rintro ⟨-, ⟨f, hgate⟩, hend, q, hstep, -⟩
    obtain ⟨e, he⟩ := Option.ne_none_iff_exists'.mp hend
    exact hnone f e q hgate he hstep

theorem sourceOf_ranges (i : Fin 8) (b : Fin 4) (ch : Fin 16) (p n k : Nat) :
    sourceOf (.gate i) = some (.gate i) ∧ sourceOf (.armed i) = some (.armed i) ∧
    sourceOf (.done i) = some (.done i) ∧ sourceOf (.step i b) = some (.step i b) ∧
    sourceOf (.divider ch) = some (.divider ch) ∧
    (2 ≤ p → p ≤ 2 ^ 32 → sourceOf (.timebase p) = some (.timebase p)) ∧
    (8 ≤ n → sourceOf (.gate n) = none ∧ sourceOf (.armed n) = none ∧ sourceOf (.done n) = none) ∧
    (8 ≤ n ∨ 4 ≤ k → sourceOf (.step n k) = none) ∧
    (16 ≤ n → sourceOf (.divider n) = none) ∧
    (p < 2 ∨ 2 ^ 32 < p → sourceOf (.timebase p) = none) := by
  refine ⟨?_, ?_, ?_, ?_, ?_, fun h2 h32 => if_pos (between_iff.mpr ⟨h2, h32⟩),
    fun h => ⟨?_, ?_, ?_⟩, fun h => ?_, fun h => ?_, fun h => if_neg ?_⟩
  · rw [sourceOf, inRange_val]; rfl
  · rw [sourceOf, inRange_val]; rfl
  · rw [sourceOf, inRange_val]; rfl
  · rw [sourceOf, inRange_val, inRange_val]
  · rw [sourceOf, inRange_val]; rfl
  · rw [sourceOf, inRange_of_le h]; rfl
  · rw [sourceOf, inRange_of_le h]; rfl
  · rw [sourceOf, inRange_of_le h]; rfl
  · rw [sourceOf]
    rcases h with h | h
    · rw [inRange_of_le h]
    · rw [inRange_of_le h]
      cases inRange 8 n <;> rfl
  · rw [sourceOf, inRange_of_le h]; rfl
  · rw [between_of_lt h]
    decide

theorem MarkerSource.follows_iff (i : Fin 8) (v : MarkerSource) :
    v.follows i = true ↔ v = .gate i ∨ v = .armed i ∨ ∃ b, v = .step i b := by
  cases v <;> simp [MarkerSource.follows, @eq_comm _ i]

/-- Settles O54: the four commands by the width rule, and the markers over a slot event. -/
theorem markerCommands : Obligations.MarkerCommands := by
  unfold Obligations.MarkerCommands
  refine ⟨fun c i s h => ?_, fun i b ch p n k => ⟨rfl, rfl, ?_⟩, fun s held i b ch p => ?_,
    fun s i out k hout => ?_⟩
  · intro m now shown settled done refused
    have hact : ∀ m' : Marker, m'.act now = settled m' := Marker.act_eq now
    have hflag : ∀ b : Bool, (flagOf (if b then 0 else 1)).map (!·) = some b := by decide
    refine ⟨fun a v ha => ?_, fun a ha => ?_, ?_, ?_, fun v hv => ?_, fun w hw => ?_, fun w hw => ?_,
      fun b => ⟨fun hl => ?_, fun hl => ?_⟩, fun v hv => ?_, fun n hn => ⟨fun a => ?_, fun v => ?_,
      fun v => ?_, fun v => ?_⟩⟩
    · have hset : Marker.setSource (consumed s) v m =
          settled { m with source := v, pulseEnd := none, request := startingRequest s m.held v } := by
        rw [← hact, Marker.setSource, startingRequest_congr (s := s) rfl rfl]
        rfl
      rw [exec_markSetSource h, ha, markerCommand_of_some, ← hset]
      rfl
    · rw [exec_markSetSource h, ha, markerCommand_of_none]
      rfl
    · rw [exec_markSetInvert h, ← hact]
      exact congrArg _ (by rw [show flagOf 0 = some false from rfl, markerCommand_of_some]; rfl)
    · rw [exec_markSetInvert h, ← hact]
      exact congrArg _ (by rw [show flagOf 1 = some true from rfl, markerCommand_of_some]; rfl)
    · rw [exec_markSetInvert h, flagOf_none hv, markerCommand_of_none]
      rfl
    · rw [exec_markSetWidth h, if_pos hw, markerCommand_of_some, ← hact]
      rfl
    · rw [exec_markSetWidth h, if_neg (Nat.not_le.mpr hw), markerCommand_of_none]
      rfl
    · have hset : Marker.setHeld (consumed s) b m = settled { m with held := b, request := b } := by
        rw [← hact]
        exact if_pos hl
      rw [exec_markLevel h, hflag, markerCommand_of_some, ← hset]
      rfl
    · have hset : Marker.setHeld (consumed s) b m = { m with held := b } := if_neg hl
      rw [exec_markLevel h, hflag, markerCommand_of_some, ← hset]
      rfl
    · rw [exec_markLevel h, flagOf_none hv, Option.map_none, markerCommand_of_none]
      rfl
    · rw [exec_markSetSource h, markerCommand_of_le hn]
      rfl
    · rw [exec_markSetInvert h, markerCommand_of_le hn]
      rfl
    · rw [exec_markSetWidth h, markerCommand_of_le hn]
      rfl
    · rw [exec_markLevel h, markerCommand_of_le hn]
      rfl
  · obtain ⟨h1, h2, h3, h4, h5, h6, h7, h8, h9, h10⟩ := sourceOf_ranges i b ch p n k
    exact ⟨h1, h2, h3, h4, h5, h6, h7, h8, h9, h10, rfl⟩
  · exact ⟨rfl, rfl, Slot.gateOpen_iff _, beq_iff_eq, Slot.stepBit_iff _ b, rfl, rfl, decide_eq_true_iff⟩
  · intro t m now
    have hpublished : m.source ≠ .done i → (out.2.foldl (fun s r => publish out.1.config.report r s)
        (s.setSlot i out.1)).markers.get k = m := fun hne =>
      foldl_publish_marker_of_ne (s := s.setSlot i out.1) fun r hr => by
        rw [hout r hr]
        exact hne
    have hmarker := applySlot_marker i out s k
    refine ⟨fun hfollow => ?_, fun hg ha hs hd => ?_⟩
    · rw [hpublished (by rcases hfollow with h | h | ⟨b, h⟩ <;> rw [h] <;> nofun)] at hmarker
      rw [hmarker, if_pos ((MarkerSource.follows_iff i _).mpr hfollow), Marker.ask_eq]
      rfl
    · rw [hpublished hd] at hmarker
      rw [hmarker, if_neg]
      rw [MarkerSource.follows_iff]
      rintro (h | h | ⟨b, h⟩)
      · exact hg h
      · exact ha h
      · exact hs b h

/-! ## The settings of a marker over the measurement part -/

/-- `b` has the settings of `a`, and its request and pulse end where the source is TIMEBASE (R148, R150). -/
def Marker.Kept (a b : Marker) : Prop :=
  b.source = a.source ∧ b.invert = a.invert ∧ b.width = a.width ∧
    ∀ p, a.source = .timebase p → b.request = a.request ∧ b.pulseEnd = a.pulseEnd

theorem Marker.Kept.refl (a : Marker) : Marker.Kept a a := ⟨rfl, rfl, rfl, fun _ _ => ⟨rfl, rfl⟩⟩

theorem Marker.Kept.trans {a b c : Marker} (h : a.Kept b) (k : b.Kept c) : a.Kept c := by
  obtain ⟨hsource, hinvert, hwidth, hrequest⟩ := h
  obtain ⟨ksource, kinvert, kwidth, krequest⟩ := k
  exact ⟨ksource.trans hsource, kinvert.trans hinvert, kwidth.trans hwidth,
    fun p hp => ⟨(krequest p (hsource.trans hp)).1.trans (hrequest p hp).1,
      (krequest p (hsource.trans hp)).2.trans (hrequest p hp).2⟩⟩

theorem Marker.act_request (now : Nat) (m : Marker) :
    (m.act now).request = m.request ∧ (m.act now).invert = m.invert ∧ (m.act now).width = m.width ∧
      (m.act now).pulseEnd = m.pulseEnd := by
  rw [m.act_frame now]
  exact ⟨rfl, rfl, rfl, rfl⟩

theorem Marker.act_kept (now : Nat) (m : Marker) : m.Kept (m.act now) := by
  obtain ⟨hrequest, hinvert, hwidth, hpulse⟩ := m.act_request now
  exact ⟨Marker.act_source now m, hinvert, hwidth, fun _ _ => ⟨hrequest, hpulse⟩⟩

theorem Marker.ask_kept {m : Marker} (now : Nat) (r : Bool) (h : ∀ p, m.source ≠ .timebase p) :
    m.Kept (m.ask now r) :=
  .trans (b := { m with request := r }) ⟨rfl, rfl, rfl, fun p hp => absurd hp (h p)⟩ (Marker.act_kept now _)

theorem Marker.pulse_kept {m : Marker} (now : Nat) (h : ∀ p, m.source ≠ .timebase p) :
    m.Kept (m.pulse now) :=
  .trans (b := { m with request := true, pulseEnd := some (now + Nat.max m.width 1) })
    ⟨rfl, rfl, rfl, fun p hp => absurd hp (h p)⟩
    (Marker.act_kept now _)

/-- The markers of `t` are kept from those of `s`. -/
def MarkersKept (s t : State) : Prop := ∀ k, (s.markers.get k).Kept (t.markers.get k)

theorem MarkersKept.refl (s : State) : MarkersKept s s := fun _ => .refl _

theorem MarkersKept.trans {a b c : State} (h : MarkersKept a b) (k : MarkersKept b c) :
    MarkersKept a c := fun m => (h m).trans (k m)

theorem MarkersKept.of_markers {s t : State} (h : t.markers = s.markers) : MarkersKept s t := fun k => by
  rw [h]
  exact .refl _

theorem MarkersKept.map {s t : State} {f : Marker → Marker} (h : t.markers = s.markers.map f)
    (hf : ∀ m : Marker, m.Kept (f m)) : MarkersKept s t := fun k => by
  rw [h, Bank.get_map]
  exact hf _

theorem MarkersKept.foldl {α : Type} {f : State → α → State} (hf : ∀ s a, MarkersKept s (f s a))
    (as : List α) (s : State) : MarkersKept s (as.foldl f s) := by
  induction as generalizing s with
  | nil => exact .refl s
  | cons a as ih => exact (hf s a).trans (ih (f s a))

theorem MarkerSource.ne_timebase_of_follows {i : Fin 8} {v : MarkerSource} (h : v.follows i = true)
    (p : Nat) : v ≠ .timebase p := fun e => by
  rw [e] at h
  cases h

theorem refreshSlotMarkers_kept (i : Fin 8) (s : State) : MarkersKept s (refreshSlotMarkers i s) :=
  .map rfl fun m => by
    split
    · next h => exact Marker.ask_kept _ _ (MarkerSource.ne_timebase_of_follows h)
    · exact .refl m

theorem signalDone_kept (i : Fin 8) (s : State) : MarkersKept s (signalDone i s) :=
  .map rfl fun m => by
    split
    · next h => exact Marker.pulse_kept _ fun p e => by rw [h] at e; cases e
    · exact .refl m

theorem toggleDividers_kept (c : Fin 16) (s : State) : MarkersKept s (toggleDividers c s) :=
  .map rfl fun m => by
    split
    · next h => exact Marker.ask_kept _ _ fun p e => by rw [h] at e; cases e
    · exact .refl m

theorem publish_kept (report : Bool) (r : Record) (s : State) : MarkersKept s (publish report r s) := by
  have hoffer : MarkersKept s (if report then offer (.result r) s else s) := by
    split
    · exact .of_markers (offer_markers _ _)
    · exact .refl s
  exact hoffer.trans ((MarkersKept.of_markers rfl).trans (signalDone_kept _ _))

theorem applySlot_kept (i : Fin 8) (out : SlotOut) (s : State) : MarkersKept s (applySlot i out s) := by
  have hset : MarkersKept s (s.setSlot i out.1) := .of_markers rfl
  exact (hset.trans (.foldl (fun s r => publish_kept _ r s) out.2 _)).trans (refreshSlotMarkers_kept i _)

theorem settleSlotLoop_kept (fuel : Nat) (i : Fin 8) (s : State) :
    MarkersKept s (settleSlotLoop fuel i s) := by
  induction fuel generalizing s with
  | zero => exact .refl s
  | succ fuel ih =>
    unfold settleSlotLoop
    split
    · exact .refl s
    · rename_i b _ n _
      have hchoice : MarkersKept s { s with choices := n } := .of_markers rfl
      exact (hchoice.trans (applySlot_kept i _ _)).trans (ih _)

theorem settleSlot_kept (s : State) (i : Fin 8) : MarkersKept s (settleSlot s i) :=
  settleSlotLoop_kept _ _ _

theorem moveMark_kept (w : Stamp) (s : State) : MarkersKept s (moveMark w s) := by
  unfold moveMark
  split
  · have hmark : MarkersKept s { s with queue := { s.queue with mark := w } } := .of_markers rfl
    exact hmark.trans (.foldl settleSlot_kept _ _)
  · exact .refl s

theorem deliverTo_kept (e : Edge) (s : State) (i : Fin 8) : MarkersKept s (deliverTo e s i) := by
  unfold deliverTo
  dsimp only
  split
  · exact (applySlot_kept i _ s).trans (settleSlot_kept _ i)
  · exact .refl s

theorem deliverEdge_kept (e : Edge) (s : State) : MarkersKept s (deliverEdge e s) := by
  unfold deliverEdge
  refine MarkersKept.trans (MarkersKept.trans ?_ (.foldl (deliverTo_kept e) _ _)) (toggleDividers_kept _ _)
  split
  · exact .of_markers (offer_markers _ _)
  · exact .refl _

theorem release_kept (s : State) (e : Edge) : MarkersKept s (release s e) :=
  (moveMark_kept e.stamp s).trans (deliverEdge_kept e _)

theorem frontierAdvance_kept (f : Stamp) (s : State) : MarkersKept s (frontierAdvance f s) := by
  unfold frontierAdvance
  refine MarkersKept.trans (MarkersKept.trans ?_ (.foldl release_kept _ _)) (moveMark_kept _ _)
  exact .of_markers rfl

/-! ## The events of marker time -/

/-- The level is settled at marker time `now`: it agrees with the pin, or its transition waits (R147). -/
def Marker.Settled (now : Nat) (m : Marker) : Prop := m.wanted = m.pin ∨ now < m.holdUntil

theorem Marker.act_settled (now : Nat) (m : Marker) : (m.act now).Settled now := by
  by_cases h : m.wanted = m.pin
  · rw [Marker.act_of_agrees h]
    exact .inl h
  · by_cases hold : m.holdUntil ≤ now
    · rw [Marker.act_of_expired h hold]
      exact .inl rfl
    · rw [Marker.act_of_waiting h (Nat.not_le.mp hold)]
      exact .inr (Nat.not_le.mp hold)

theorem Marker.holdDue_iff (now : Nat) (m : Marker) :
    m.holdDue now = true ↔ m.wanted ≠ m.pin ∧ m.holdUntil ≤ now := by
  rw [Marker.holdDue, Bool.and_eq_true, decide_eq_true_eq, decide_eq_true_eq]

theorem Marker.settled_of_not_due {now : Nat} {m : Marker} (h : m.holdDue now = false) :
    m.Settled now := by
  by_cases hw : m.wanted = m.pin
  · exact .inl hw
  · refine .inr (Nat.not_le.mp fun hold => ?_)
    rw [(m.holdDue_iff now).mpr ⟨hw, hold⟩] at h
    cases h

/-- What the due events of a marker come to, whatever their order: they leave its settings and its level
settled, and no pulse end behind (R147, R152). -/
def Marker.EventsTaken (now : Nat) (m m' : Marker) : Prop :=
  m'.source = m.source ∧ m'.invert = m.invert ∧ m'.width = m.width ∧
    (m.pulseEnd = none → m'.request = m.request) ∧ m'.Settled now ∧
    ∀ p, m'.pulseEnd = some p → now < p

theorem Marker.pulseDue_of_le {now p : Nat} {m : Marker} (hp : m.pulseEnd = some p) :
    m.pulseDue now = decide (p ≤ now) := by
  rw [Marker.pulseDue, hp]

theorem Marker.pulseDue_of_none {now : Nat} {m : Marker} (hp : m.pulseEnd = none) :
    m.pulseDue now = false := by
  rw [Marker.pulseDue, hp]

/-- A marker whose pulse is not due keeps its pulse end, which lies ahead (R152). -/
theorem Marker.pulse_ahead {now : Nat} {m : Marker} (h : m.pulseDue now = false) {p : Nat}
    (hp : m.pulseEnd = some p) : now < p := by
  rw [Marker.pulseDue_of_le hp, decide_eq_false_iff_not] at h
  exact Nat.not_le.mp h

theorem Marker.act_taken {now : Nat} {m : Marker} (h : m.pulseDue now = false) :
    m.EventsTaken now (m.act now) := by
  obtain ⟨hrequest, hinvert, hwidth, hpulse⟩ := m.act_request now
  exact ⟨Marker.act_source now m, hinvert, hwidth, fun _ => hrequest, Marker.act_settled now m,
    fun p hp => Marker.pulse_ahead h (hpulse ▸ hp)⟩

theorem Marker.endPulse_taken {now : Nat} {m : Marker} (h : m.pulseDue now = true) :
    m.EventsTaken now (m.endPulse now) := by
  obtain ⟨-, hinvert, hwidth, hpulse⟩ :=
    ({ m with request := false, pulseEnd := none } : Marker).act_request now
  refine ⟨Marker.act_source now _, hinvert, hwidth, fun hn => ?_, Marker.act_settled now _, fun p hp => ?_⟩
  · rw [Marker.pulseDue_of_none hn] at h
    cases h
  · cases hpulse.symm.trans hp

/-- A further event leaves what the first ones came to, where the pulse has ended already. -/
theorem Marker.EventsTaken.act {now : Nat} {m m' : Marker} (h : m.EventsTaken now m') :
    m.EventsTaken now (m'.act now) := by
  obtain ⟨hsource, hinvert, hwidth, hrequest, -, hpulse⟩ := h
  obtain ⟨arequest, ainvert, awidth, apulse⟩ := m'.act_request now
  exact ⟨(Marker.act_source now m').trans hsource, ainvert.trans hinvert, awidth.trans hwidth,
    fun hn => arequest.trans (hrequest hn), Marker.act_settled now m', fun p hp => hpulse p (apulse ▸ hp)⟩

theorem Marker.endPulse_taken_of_act {now : Nat} {m : Marker} (h : m.pulseDue now = true) :
    m.EventsTaken now ((m.act now).endPulse now) := by
  obtain ⟨-, hinvert, hwidth, hpulse⟩ := m.act_request now
  have hdue : (m.act now).pulseDue now = true := by rw [Marker.pulseDue, hpulse]; exact h
  obtain ⟨esource, einvert, ewidth, erequest, esettled, epulse⟩ := Marker.endPulse_taken hdue
  refine ⟨esource.trans (Marker.act_source now m), einvert.trans hinvert, ewidth.trans hwidth,
    fun hn => ?_, esettled, epulse⟩
  rw [Marker.pulseDue_of_none hn] at h
  cases h

theorem Marker.dueEvents_eq (now : Nat) (m : Marker) :
    m.dueEvents now =
      (if m.holdDue now then [true] else []) ++ (if m.pulseDue now then [false] else []) := rfl

/-- The due events of a marker, taken in any order. -/
theorem Marker.events_taken {now : Nat} {m : Marker} {hs : List Bool}
    (h : hs.Perm (m.dueEvents now)) :
    m.EventsTaken now (hs.foldl (fun m e => m.takeEvent now e) m) := by
  rw [Marker.dueEvents_eq] at h
  cases hhold : m.holdDue now <;> cases hpulse : m.pulseDue now <;> rw [hhold, hpulse] at h
  case false.false =>
    rw [List.Perm.eq_nil h]
    exact ⟨rfl, rfl, rfl, fun _ => rfl, Marker.settled_of_not_due hhold, fun p hp =>
      Marker.pulse_ahead hpulse hp⟩
  case false.true =>
    rw [List.perm_singleton.mp h]
    exact Marker.endPulse_taken hpulse
  case true.false =>
    rw [List.perm_singleton.mp h]
    exact Marker.act_taken hpulse
  case true.true =>
    rcases List.perm_pair.mp h with rfl | rfl
    · exact Marker.endPulse_taken_of_act hpulse
    · exact (Marker.endPulse_taken hpulse).act

theorem settleMarker_self (s : State) (i : Fin 4) :
    (s.markers.get i).EventsTaken s.markerTime ((settleMarker s i).markers.get i) := by
  rw [settleMarker]
  split
  · next hnone => exact Marker.events_taken (hs := []) (by rw [choose_eq_none hnone])
  · next e others n hchoose =>
    have hget : (({ s.setMarker i (others.foldl (fun m e => m.takeEvent s.markerTime e)
        ((s.markers.get i).takeEvent s.markerTime e)) with choices := n } : State).markers.get i) =
        (e :: others).foldl (fun m e => m.takeEvent s.markerTime e) (s.markers.get i) :=
      Bank.get_set_self _ _ _
    rw [hget]
    exact Marker.events_taken (choose_perm hchoose)

theorem settleMarker_ne {s : State} {i j : Fin 4} (h : j ≠ i) :
    (settleMarker s i).markers.get j = s.markers.get j := by
  rw [settleMarker]
  split
  · rfl
  · exact Bank.get_set_ne _ _ h

theorem settleMarker_markerTime (s : State) (i : Fin 4) : (settleMarker s i).markerTime = s.markerTime := by
  obtain ⟨_, _, h⟩ := settleMarker_frame s i
  rw [h]

theorem foldl_settleMarker_of_not_mem {is : List (Fin 4)} {s : State} {j : Fin 4} (h : j ∉ is) :
    (is.foldl settleMarker s).markers.get j = s.markers.get j := by
  induction is generalizing s with
  | nil => rfl
  | cons i is ih =>
    rw [List.mem_cons, not_or] at h
    obtain ⟨hne, hmem⟩ := h
    rw [List.foldl_cons, ih hmem, settleMarker_ne hne]

theorem foldl_settleMarker {is : List (Fin 4)} (hnodup : is.Nodup) {s : State} {j : Fin 4} (h : j ∈ is) :
    (s.markers.get j).EventsTaken s.markerTime ((is.foldl settleMarker s).markers.get j) := by
  induction is generalizing s with
  | nil => cases h
  | cons i is ih =>
    obtain ⟨hi, hnodup⟩ := List.nodup_cons.mp hnodup
    rw [List.foldl_cons]
    rcases List.mem_cons.mp h with rfl | hmem
    · rw [foldl_settleMarker_of_not_mem hi]
      exact settleMarker_self s j
    · have hrest := ih hnodup (s := settleMarker s i) hmem
      rwa [settleMarker_ne fun e : j = i => hi (e ▸ hmem), settleMarker_markerTime] at hrest

/-- Each marker at the end of a period: its due events are taken, and the pin shows its level (R147). -/
theorem endMarkerPeriod_marker (s : State) (i : Fin 4) :
    ∃ m, (s.markers.get i).EventsTaken s.markerTime m ∧
      (endMarkerPeriod s).markers.get i = { m with shown := m.pin } :=
  ⟨_, foldl_settleMarker (List.nodup_finRange 4) (List.mem_finRange i), Bank.get_map _ _ _⟩

/-- The counts have advanced: a TIMEBASE marker takes its request from the new count (R150). -/
theorem counted_marker (s : State) (i : Fin 4) :
    let m := s.markers.get i
    let m' := (counted s).markers.get i
    m'.source = m.source ∧ m'.invert = m.invert ∧ m'.width = m.width ∧ m'.pulseEnd = m.pulseEnd ∧
      ∀ p, m.source = .timebase p → m'.request = timebaseRequest p (s.timebase.count + 1) := by
  intro m m'
  have hget : m' = match m.source with
      | .timebase p => m.ask s.markerTime (timebaseRequest p (s.timebase.count + 1))
      | _ => m := Bank.get_map _ _ _
  rw [hget]
  split
  · next q hq =>
    obtain ⟨hrequest, hinvert, hwidth, hpulse⟩ :=
      ({ m with request := timebaseRequest q (s.timebase.count + 1) } : Marker).act_request s.markerTime
    refine ⟨Marker.act_source _ _, hinvert, hwidth, hpulse, fun p hp => ?_⟩
    obtain rfl : q = p := by simpa using hq.symm.trans hp
    exact hrequest
  · next hnone => exact ⟨rfl, rfl, rfl, rfl, fun p hp => absurd hp (hnone p)⟩

/-- The markers as they stand when the last events of a period fall due (R74). -/
theorem endPeriod_marker (s : State) (i : Fin 4) :
    ∃ m, ((advanced s).markers.get i).EventsTaken s.markerTime m ∧
      (endPeriod s).markers.get i = { m with shown := m.pin } := by
  obtain ⟨_, _, _, _, _, h⟩ := takePeriodEvents_frame (periodEvents (advanced s)).length
    (periodEvents (advanced s)) (advanced s)
  have hmarkers : (takePeriodEvents (periodEvents (advanced s)).length (periodEvents (advanced s))
      (advanced s)).markers = (advanced s).markers := by rw [h]
  have htime : (takePeriodEvents (periodEvents (advanced s)).length (periodEvents (advanced s))
      (advanced s)).markerTime = s.markerTime := by
    rw [h]
    exact (advanced_runs s).moves.same.markerTime
  obtain ⟨m, htaken, hget⟩ := endMarkerPeriod_marker (takePeriodEvents
    (periodEvents (advanced s)).length (periodEvents (advanced s)) (advanced s)) i
  rw [hmarkers, htime] at htaken
  exact ⟨m, htaken, by rw [endPeriod_eq, hget]⟩

/-! ## The rows of a marker's events -/

theorem exec_markerHoldExpiry {s : State} (hheld : s.held = false) (i : Fin 4) :
    exec (.markerHoldExpiry i) s =
      .next (if (s.markers.get i).holdDue s.markerTime then
        s.setMarker i ((s.markers.get i).act s.markerTime) else s) := by
  change execMarkerHoldExpiry i s = _
  rw [execMarkerHoldExpiry, hheld]
  rfl

theorem exec_donePulseEnd {s : State} (hheld : s.held = false) (i : Fin 4) :
    exec (.donePulseEnd i) s =
      .next (if (s.markers.get i).pulseDue s.markerTime then
        s.setMarker i ((s.markers.get i).endPulse s.markerTime) else s) := by
  change execDonePulseEnd i s = _
  rw [execDonePulseEnd, hheld]
  rfl

/-- The level of a marker whose pulse has ended (R152). -/
theorem Marker.fallen_eq (m : Marker) :
    ({ m with request := false, pulseEnd := none } : Marker).wanted =
      if m.invert then PinLevel.high else .low := by
  rw [Marker.wanted]
  dsimp only
  cases m.invert <;> rfl

/-- Settles O55: the two rows on both sides of their points, and each marker at the end of a period. -/
theorem markerEvents : Obligations.MarkerEvents := by
  unfold Obligations.MarkerEvents
  refine ⟨fun i s hheld => ?_, fun s t i hheld hsound hstep => ?_⟩
  · intro m now wanted fallen hold
    have hwanted : m.wanted = wanted := m.wanted_eq
    refine ⟨fun hne hle => ?_, fun h => ?_, fun p hp => ?_, fun hn => ?_⟩
    · rw [exec_markerHoldExpiry hheld, if_pos ((m.holdDue_iff now).mpr ⟨hwanted ▸ hne, hle⟩),
        Marker.act_of_expired (by rw [hwanted]; exact hne) hle, hwanted]
      rfl
    · rw [exec_markerHoldExpiry hheld, if_neg]
      rw [Marker.holdDue_iff]
      rintro ⟨hne, hle⟩
      rcases h with h | h
      · exact hne (hwanted.trans h)
      · exact absurd hle (Nat.not_le.mpr h)
    · let ended : Marker := { m with request := false, pulseEnd := none }
      have hfall : ended.wanted = fallen := m.fallen_eq
      have hdue : ∀ hle : p ≤ now, m.pulseDue now = true := fun hle => by
        rw [Marker.pulseDue_of_le hp, decide_eq_true hle]
      refine ⟨fun hle hne hold' => ?_, fun hle heq => ?_, fun hle hne hwait => ?_, fun hlt => ?_⟩
      · rw [exec_donePulseEnd hheld, if_pos (hdue hle), Marker.endPulse,
          Marker.act_of_expired (m := ended) (by rw [hfall]; exact hne) hold', hfall]
        rfl
      · rw [exec_donePulseEnd hheld, if_pos (hdue hle), Marker.endPulse,
          Marker.act_of_agrees (m := ended) (by rw [hfall]; exact heq)]
        rfl
      · rw [exec_donePulseEnd hheld, if_pos (hdue hle), Marker.endPulse,
          Marker.act_of_waiting (m := ended) (by rw [hfall]; exact hne) hwait]
        rfl
      · rw [exec_donePulseEnd hheld, if_neg]
        rw [Marker.pulseDue_of_le hp, decide_eq_true_eq]
        exact Nat.not_le.mpr hlt
    · rw [exec_donePulseEnd hheld, if_neg]
      rw [Marker.pulseDue_of_none hn]
      decide
  · rw [exec_timebaseAdvance hheld] at hstep
    obtain rfl := Host.Outcome.next.inj hstep
    obtain ⟨m, ⟨esource, einvert, ewidth, erequest, esettled, epulse⟩, hget⟩ := endPeriod_marker s i
    obtain ⟨asource, ainvert, awidth, atimebase⟩ := frontierAdvance_kept (counted s).timebase.frontier (counted s) i
    obtain ⟨csource, cinvert, cwidth, cpulse, crequest⟩ := counted_marker s i
    have htime : (endPeriod s).markerTime = s.markerTime + 1 := by
      obtain ⟨_, _, _, _, _, h⟩ := endMarkerPeriod_of_frame (takePeriodEvents_frame
        (periodEvents (advanced s)).length (periodEvents (advanced s)) (advanced s))
      rw [endPeriod_eq, h]
      exact congrArg (· + 1) (advanced_runs s).moves.same.markerTime
    have hcount : (endPeriod s).timebase.count = s.timebase.count + 1 := by
      obtain ⟨_, _, _, _, _, h⟩ := endMarkerPeriod_of_frame (takePeriodEvents_frame
        (periodEvents (advanced s)).length (periodEvents (advanced s)) (advanced s))
      rw [endPeriod_eq, h]
      exact congrArg Timebase.count (advanced_runs s).moves.same.timebase
    rw [hget, htime, hcount]
    refine ⟨rfl, esource.trans (asource.trans csource), einvert.trans (ainvert.trans cinvert),
      ewidth.trans (awidth.trans cwidth), fun p hp => ?_, epulse, fun hlt => ?_⟩
    · obtain ⟨harequest, hapulse⟩ := atimebase p (csource.trans hp)
      have hnone : (s.markers.get i).pulseEnd = none := by
        by_contra hne
        obtain ⟨k, hk⟩ := hsound.2.2.1 hne
        cases hp.symm.trans hk
      exact (erequest (hapulse.trans (cpulse.trans hnone))).trans (harequest.trans (crequest p hp))
    · have hagrees : m.wanted = m.pin := esettled.resolve_right (by
        change ¬ s.markerTime < m.resetHold.getD (m.lastTransition + m.width)
        change m.resetHold.getD (m.lastTransition + m.width) < s.markerTime + 1 at hlt
        omega)
      change m.pin = .high ↔ m.request ≠ m.invert
      rw [← hagrees, Marker.wanted_eq]
      split <;> simp_all

end Sys2Proof.Machine
end

section
/-!
SUPPORT. The commands that set, read, hold and resume a slot (R89, R90, R108).
-/

namespace Sys2Proof.Machine

/-! ## The values of a slot's fields -/

theorem kindOf_of_le {v : Nat} (h : v ≤ 2) : ∃ k, kindOf v = some k := by
  interval_cases v <;> exact ⟨_, rfl⟩

theorem kindOf_none {v : Nat} (h : 3 ≤ v) : kindOf v = none := by
  match v, h with
  | _ + 3, _ => rfl

theorem restartOf_of_le {v : Nat} (h : v ≤ 1) : ∃ r, restartOf v = some r := by
  interval_cases v <;> exact ⟨_, rfl⟩

theorem restartOf_none {v : Nat} (h : 2 ≤ v) : restartOf v = none := by
  match v, h with
  | _ + 2, _ => rfl

theorem pinLevelOf_of_le {v : Nat} (h : v ≤ 1) : ∃ l, pinLevelOf v = some l := by
  interval_cases v <;> exact ⟨_, rfl⟩

theorem pinLevelOf_none {v : Nat} (h : 2 ≤ v) : pinLevelOf v = none := by
  match v, h with
  | _ + 2, _ => rfl

theorem refSenseOf_none {v : Nat} (h : 3 ≤ v) : refSenseOf v = none := by
  match v, h with
  | _ + 3, _ => rfl

theorem refSenseOf_code (se : RefSense) : refSenseOf se.code = some se := by cases se <;> rfl

theorem endpointOf_code (ch : Fin 16) (se : RefSense) : endpointOf ch se.code = some ⟨ch, se⟩ := by
  rw [endpointOf, inRange_val, refSenseOf_code]

theorem endpointOf_none {ch se : Nat} (h : 16 ≤ ch ∨ 3 ≤ se) : endpointOf ch se = none := by
  rw [endpointOf]
  rcases h with h | h
  · rw [inRange_of_le h]
  · rw [refSenseOf_none h]
    cases inRange 16 ch <;> rfl

theorem gateModeOf_external (ch : Fin 16) {v : Nat} {l : PinLevel} (h : pinLevelOf v = some l) :
    gateModeOf (.external ch v) = some (.external ch l) := by
  rw [gateModeOf, inRange_val, h]

theorem gateModeOf_external_none {ch v : Nat} (h : 16 ≤ ch ∨ 2 ≤ v) :
    gateModeOf (.external ch v) = none := by
  rw [gateModeOf]
  rcases h with h | h
  · rw [inRange_of_le h]
  · rw [pinLevelOf_none h]
    cases inRange 16 ch <;> rfl

theorem gateModeOf_plan {n : Nat} (h : n < 64) : gateModeOf (.plan n) = some (.plan ⟨n, h⟩) := by
  rw [gateModeOf, inRange_of_lt h]
  rfl

/-! ## What SLOT-SET writes -/

section Write
variable (g : SlotConfig)

theorem SlotConfig.write_kind {v : Nat} {k : SlotKind} (h : kindOf v = some k) :
    g.write (.kind v) = some { g with kind := k } := by
  rw [SlotConfig.write, h]
  rfl

theorem SlotConfig.write_endpointA (ch : Fin 16) (se : RefSense) :
    g.write (.endpointA ch se.code) = some { g with endpointA := ⟨ch, se⟩ } := by
  rw [SlotConfig.write, endpointOf_code]
  rfl

theorem SlotConfig.write_endpointB (ch : Fin 16) (se : RefSense) :
    g.write (.endpointB true ch se.code) = some { g with endpointB := some ⟨ch, se⟩ } := by
  rw [SlotConfig.write, endpointOf_code]
  rfl

theorem SlotConfig.write_armEdge (ch : Fin 16) (se : RefSense) :
    g.write (.armSource (.armEdge ch se.code)) = some { g with armSource := .armEdge ⟨ch, se⟩ } := by
  rw [SlotConfig.write, armSourceOf, endpointOf_code]
  rfl

theorem SlotConfig.write_gate {a : GateArg} {m : GateMode} (h : gateModeOf a = some m) :
    g.write (.gateMode a) = some { g with gate := m } := by
  rw [SlotConfig.write, h]
  rfl

theorem SlotConfig.write_length {v : Nat} (h : 1 ≤ v) (h' : v ≤ 2 ^ 40) :
    g.write (.gateLength v) = some { g with length := v } := if_pos (between_iff.mpr ⟨h, h'⟩)

theorem SlotConfig.write_repeats {v : Nat} (h : v ≤ 65535) :
    g.write (.repeats v) = some { g with repeats := v } :=
  if_pos (between_iff.mpr ⟨Nat.zero_le v, h⟩)

theorem SlotConfig.write_samples {v : Nat} (h : 1 ≤ v) (h' : v ≤ 65535) :
    g.write (.samples v) = some { g with samples := v } := if_pos (between_iff.mpr ⟨h, h'⟩)

theorem SlotConfig.write_timeout {v : Nat} (h : 1 ≤ v) (h' : v ≤ 2 ^ 32 - 1) :
    g.write (.closeTimeout v) = some { g with timeout := v } := if_pos (between_iff.mpr ⟨h, h'⟩)

theorem SlotConfig.write_restart {v : Nat} {r : Restart} (h : restartOf v = some r) :
    g.write (.restart v) = some { g with restart := r } := by
  rw [SlotConfig.write, h]
  rfl

theorem SlotConfig.write_shared {v : Nat} {b : Bool} (h : flagOf v = some b) :
    g.write (.sharedEdge v) = some { g with shared := b } := by
  rw [SlotConfig.write, h]
  rfl

theorem SlotConfig.write_report {v : Nat} {b : Bool} (h : flagOf v = some b) :
    g.write (.report v) = some { g with report := b } := by
  rw [SlotConfig.write, h]
  rfl

/-- The values that lie outside a field's range (R89). -/
theorem SlotConfig.write_none (v ch se : Nat) :
    (3 ≤ v → g.write (.kind v) = none) ∧
    (16 ≤ ch ∨ 3 ≤ se → g.write (.endpointA ch se) = none ∧ g.write (.endpointB true ch se) = none ∧
      g.write (.armSource (.armEdge ch se)) = none) ∧
    (16 ≤ ch ∨ 2 ≤ v → g.write (.gateMode (.external ch v)) = none) ∧
    (64 ≤ v → g.write (.gateMode (.plan v)) = none) ∧
    (v = 0 ∨ 2 ^ 40 < v → g.write (.gateLength v) = none) ∧
    (65535 < v → g.write (.repeats v) = none) ∧
    (v = 0 ∨ 65535 < v → g.write (.samples v) = none) ∧
    (2 ≤ v → g.write (.restart v) = none) ∧
    (2 ≤ v → g.write (.sharedEdge v) = none) ∧
    (v = 0 ∨ 2 ^ 32 ≤ v → g.write (.closeTimeout v) = none) ∧
    (2 ≤ v → g.write (.report v) = none) := by
  refine ⟨fun h => ?_, fun h => ⟨?_, ?_, ?_⟩, fun h => ?_, fun h => ?_, fun h => ?_, fun h => ?_,
    fun h => ?_, fun h => ?_, fun h => ?_, fun h => ?_, fun h => ?_⟩
  · rw [SlotConfig.write, kindOf_none h]; rfl
  · rw [SlotConfig.write, endpointOf_none h]; rfl
  · rw [SlotConfig.write, endpointOf_none h]; rfl
  · rw [SlotConfig.write, armSourceOf, endpointOf_none h]; rfl
  · rw [SlotConfig.write, gateModeOf_external_none h]; rfl
  · rw [SlotConfig.write, gateModeOf, inRange_of_le h]; rfl
  · rw [SlotConfig.write, between_of_lt (by omega)]; rfl
  · rw [SlotConfig.write, between_of_lt (.inr h)]; rfl
  · rw [SlotConfig.write, between_of_lt (by omega)]; rfl
  · rw [SlotConfig.write, restartOf_none h]; rfl
  · rw [SlotConfig.write, flagOf_none h]; rfl
  · rw [SlotConfig.write, between_of_lt (by omega)]; rfl
  · rw [SlotConfig.write, flagOf_none h]; rfl

end Write

/-! ## SLOT-SET -/

section SlotSet
variable {c : Cell} {i : Fin 8} {s : State} {a : SlotArg}

theorem exec_slotSet (h : TakesQuietly s c) (n : Nat) (a : SlotArg) :
    exec (.slotSet c n a) s =
      .next (replied c (slotSet n a (consumed s)).code (slotSet n a (consumed s)).fields
        (slotSet n a (consumed s)).state) := by
  change execSlotSet c n a s = _
  rw [execSlotSet, takeCommand_quiet h]

theorem exec_slotSet_done (h : TakesQuietly s c) {g : SlotConfig}
    (hw : (s.slots.get i).config.write a = some g) (hidle : (s.slots.get i).state = .idle) :
    exec (.slotSet c i a) s = .next (replied c .done
      ([num 3 i.val, num 4 (slotFieldCode a)] ++ g.fieldValue a)
      { consumed s with slots := s.slots.set i { s.slots.get i with config := g } }) := by
  have hset : slotSet i a (consumed s) =
      ⟨(consumed s).setSlot i { s.slots.get i with config := g }, .done,
        [num 3 i.val, num 4 (slotFieldCode a)] ++ g.fieldValue a⟩ := by
    rw [slotSet, inRange_val]
    change (match (s.slots.get i).config.write a with | none => _ | some g => _ : Answer) = _
    rw [hw]
    exact if_pos hidle
  rw [exec_slotSet h, hset]
  rfl

theorem exec_slotSet_range (h : TakesQuietly s c) (hw : (s.slots.get i).config.write a = none) :
    exec (.slotSet c i a) s = .next (replied c .range
      ([num 3 i.val, num 4 (slotFieldCode a)] ++ (s.slots.get i).config.fieldValue a) (consumed s)) := by
  have hset : slotSet i a (consumed s) = .still (consumed s) .range
      ([num 3 i.val, num 4 (slotFieldCode a)] ++ (s.slots.get i).config.fieldValue a) := by
    rw [slotSet, inRange_val]
    change (match (s.slots.get i).config.write a with | none => _ | some g => _ : Answer) = _
    rw [hw]
    rfl
  rw [exec_slotSet h, hset]
  rfl

theorem exec_slotSet_state (h : TakesQuietly s c) {g : SlotConfig}
    (hw : (s.slots.get i).config.write a = some g) (hrun : (s.slots.get i).state ≠ .idle) :
    exec (.slotSet c i a) s = .next (replied c .state
      ([num 3 i.val, num 4 (slotFieldCode a)] ++ (s.slots.get i).config.fieldValue a) (consumed s)) := by
  have hset : slotSet i a (consumed s) = .still (consumed s) .state
      ([num 3 i.val, num 4 (slotFieldCode a)] ++ (s.slots.get i).config.fieldValue a) := by
    rw [slotSet, inRange_val]
    change (match (s.slots.get i).config.write a with | none => _ | some g => _ : Answer) = _
    rw [hw]
    exact if_neg hrun
  rw [exec_slotSet h, hset]
  rfl

end SlotSet

/-- Settles O40: a SLOT-SET by what its field takes, field by field. -/
theorem slotSetWritesOneField : Obligations.SlotSetWritesOneField := by
  unfold Obligations.SlotSetWritesOneField
  intro c i s h x g set still endpointB armSource gate
  have hB : optionalEndpoint g.endpointB = endpointB := by
    dsimp only [endpointB]
    cases g.endpointB <;> rfl
  have hS : g.armSource.fields = armSource := by
    dsimp only [armSource]
    cases g.armSource <;> rfl
  have hG : g.gate.fields = gate := by
    dsimp only [gate]
    cases g.gate with
    | external ch l => cases l <;> rfl
    | timed | plan f | openEnded => rfl
  have hset : ∀ {a : SlotArg} {after : SlotConfig}, g.write a = some after →
      set a (slotFieldCode a) (after.fieldValue a) after := fun hw hidle =>
    exec_slotSet_done h hw hidle
  have hrange : ∀ {a : SlotArg}, g.write a = none →
      still a .range (slotFieldCode a) (g.fieldValue a) := fun hw => exec_slotSet_range h hw
  refine ⟨fun v ch se => ?_, fun v ch se => ?_, fun hrun v ch se => ?_, fun n v hn => ⟨?_, ?_⟩⟩
  · exact ⟨hset rfl, hset rfl, hset rfl, hset (g.write_endpointA ch se), hset (g.write_endpointB ch se),
      hset rfl, hset rfl, hset rfl, hset (g.write_armEdge ch se), hset rfl,
      hset (g.write_gate (gateModeOf_external ch rfl)), hset (g.write_gate (gateModeOf_external ch rfl)),
      fun n => hset (g.write_gate (gateModeOf_plan n.isLt)), hset rfl,
      fun h1 h2 => hset (g.write_length h1 h2), fun h1 => hset (g.write_repeats h1),
      fun h1 h2 => hset (g.write_samples h1 h2), hset rfl, hset rfl, hset rfl, hset rfl,
      fun h1 h2 => hset (g.write_timeout h1 h2), hset rfl, hset rfl⟩
  · obtain ⟨hkind, hend, hext, hplan, hlength, hrepeats, hsamples, hrestart, hshared, htimeout,
      hreport⟩ := g.write_none v ch se
    rw [← hB, ← hS, ← hG]
    exact ⟨fun hv => hrange (hkind hv), fun hv => ⟨hrange (hend hv).1, hrange (hend hv).2.1,
        hrange (hend hv).2.2⟩, hrange rfl, fun hv => hrange (hext hv), fun hv => hrange (hplan hv),
      hrange rfl, fun hv => hrange (hlength hv), fun hv => hrange (hrepeats hv),
      fun hv => hrange (hsamples hv), fun hv => hrange (hrestart hv), fun hv => hrange (hshared hv),
      fun hv => hrange (htimeout hv), fun hv => hrange (hreport hv), hrange rfl⟩
  · have hstate : ∀ {a : SlotArg} {after : SlotConfig}, g.write a = some after →
        still a .state (slotFieldCode a) (g.fieldValue a) := fun hw => exec_slotSet_state h hw hrun
    have hbool : v ≤ 1 → ∃ b, flagOf v = some b := flagOf_of_le
    rw [← hB, ← hS, ← hG]
    refine ⟨fun hv => ?_, hstate (g.write_endpointA ch se), hstate (g.write_endpointB ch se), hstate rfl,
      hstate rfl, hstate rfl, hstate (g.write_armEdge ch se), hstate rfl, fun hv => ?_,
      fun hv => hstate (g.write_gate (gateModeOf_plan (Nat.lt_succ_of_le hv))), hstate rfl,
      fun h1 h2 => hstate (g.write_length h1 h2), fun h1 => hstate (g.write_repeats h1),
      fun h1 h2 => hstate (g.write_samples h1 h2), fun hv => ?_, fun hv => ?_,
      fun h1 h2 => hstate (g.write_timeout h1 h2), fun hv => ?_⟩
    · obtain ⟨k, hk⟩ := kindOf_of_le hv
      exact hstate (g.write_kind hk)
    · obtain ⟨l, hl⟩ := pinLevelOf_of_le hv
      exact hstate (g.write_gate (gateModeOf_external ch hl))
    · obtain ⟨r, hr⟩ := restartOf_of_le hv
      exact hstate (g.write_restart hr)
    · obtain ⟨b, hb⟩ := hbool hv
      exact hstate (g.write_shared hb)
    · obtain ⟨b, hb⟩ := hbool hv
      exact hstate (g.write_report hb)
  · rw [exec_slotSet h, slotSet, inRange_of_le hn]
    rfl
  · rw [exec_slotSet h, slotSet, inRange_of_le hn]
    rfl

/-! ## HOLD and RESUME -/

theorem exec_hold {c : Cell} {s : State} (h : TakesQuietly s c) (n : Nat) :
    let out := moveTotal .totalCounting .held n (consumed s)
    exec (.hold c n) s = .next (replied c out.code out.fields out.state) := by
  change execHold c n s = _
  rw [execHold, takeCommand_quiet h]

theorem exec_resume {c : Cell} {s : State} (h : TakesQuietly s c) (n : Nat) :
    let out := moveTotal .held .totalCounting n (consumed s)
    exec (.resume c n) s = .next (replied c out.code out.fields out.state) := by
  change execResume c n s = _
  rw [execResume, takeCommand_quiet h]

section MoveTotal
variable {before after : SlotState} {i : Fin 8} {s : State}

theorem moveTotal_of_le {n : Nat} (h : 8 ≤ n) : moveTotal before after n s = .still s .range := by
  rw [moveTotal, inRange_of_le h]

theorem moveTotal_of_kind (h : (s.slots.get i).config.kind ≠ .total) :
    moveTotal before after i s = .still s .wrongKind := by
  rw [moveTotal, inRange_val]
  exact if_pos h

theorem moveTotal_of_state (hk : (s.slots.get i).config.kind = .total)
    (h : (s.slots.get i).state ≠ before) : moveTotal before after i s = .still s .state := by
  rw [moveTotal, inRange_val]
  exact (if_neg (not_not.mpr hk)).trans (if_pos h)

theorem moveTotal_moved (hk : (s.slots.get i).config.kind = .total)
    (h : (s.slots.get i).state = before) :
    moveTotal before after i s =
      ⟨refreshSlotMarkers i (s.setSlot i { s.slots.get i with state := after }), .done, []⟩ := by
  rw [moveTotal, inRange_val]
  exact (if_neg (not_not.mpr hk)).trans (if_neg (not_not.mpr h))

end MoveTotal

/-- Settles O44: the refusals in their order, and the move between COUNTING and HELD. -/
theorem holdAndResume : Obligations.HoldAndResume := by
  unfold Obligations.HoldAndResume
  intro c i s h x moved
  refine ⟨fun n hn => ⟨?_, ?_⟩, fun hk => ⟨?_, ?_⟩, fun hk => ⟨fun hs => ?_, fun hs => ?_, fun hs => ?_,
    fun hs => ?_⟩⟩
  · rw [exec_hold h, moveTotal_of_le hn]
    rfl
  · rw [exec_resume h, moveTotal_of_le hn]
    rfl
  · rw [exec_hold h, moveTotal_of_kind (by exact hk)]
    rfl
  · rw [exec_resume h, moveTotal_of_kind (by exact hk)]
    rfl
  · rw [exec_hold h, moveTotal_of_state (by exact hk) (by exact hs)]
    rfl
  · rw [exec_hold h, moveTotal_moved (by exact hk) (by exact hs)]
    rfl
  · rw [exec_resume h, moveTotal_of_state (by exact hk) (by exact hs)]
    rfl
  · rw [exec_resume h, moveTotal_moved (by exact hk) (by exact hs)]
    rfl

/-! ## SLOT-GET -/

section SlotGet
variable {c : Cell} {s : State} (h : TakesQuietly s c)
include h

theorem exec_slotGet_done {i : Fin 8} {item : SlotItem} {fs : List Field}
    (hf : slotItemFields (s.slots.get i) i item = some fs) :
    exec (.slotGet c i item) s = .next (replied c .done fs (consumed s)) := by
  change execSlotGet c i item s = _
  have hf' : slotItemFields ((consumed s).slots.get i) i item = some fs := hf
  rw [execSlotGet, takeCommand_quiet h, inRange_val]
  dsimp only
  rw [hf']
  rfl

theorem exec_slotGet_none {i : Fin 8} {item : SlotItem}
    (hf : slotItemFields (s.slots.get i) i item = none) :
    exec (.slotGet c i item) s = .next (replied c .range [] (consumed s)) := by
  change execSlotGet c i item s = _
  have hf' : slotItemFields ((consumed s).slots.get i) i item = none := hf
  rw [execSlotGet, takeCommand_quiet h, inRange_val]
  dsimp only
  rw [hf']
  rfl

theorem exec_slotGet_range {n : Nat} (item : SlotItem) (hn : 8 ≤ n) :
    exec (.slotGet c n item) s = .next (replied c .range [] (consumed s)) := by
  change execSlotGet c n item s = _
  rw [execSlotGet, takeCommand_quiet h, inRange_of_le hn]
  rfl

end SlotGet

theorem slotItemFields_result {seg : Nat} (h : seg ≤ 6) (x : Slot) (i : Fin 8) :
    slotItemFields x i (.result seg) = some (resultFields x i seg) := if_pos h

theorem resultFields_of_present {x : Slot} {i : Fin 8} {r : Record} {seg : Nat}
    (hr : x.retained = some r) (hseg : seg < r.body.cells) :
    resultFields x i seg =
      [num 8 (i.val * 32 + seg * 4 + (if seg + 1 = r.body.cells then 2 else 0)),
        num 56 (r.segment seg)] := by
  have hcells := r.body.cells_le
  rw [resultFields, hr]
  refine (if_pos hseg).trans ?_
  rw [segmentDescriptor_eq _ i.isLt (by omega)]
  by_cases hlast : seg + 1 = r.body.cells
  · rw [if_pos hlast, beq_iff_eq.mpr hlast]
    rfl
  · rw [if_neg hlast, beq_eq_false_iff_ne.mpr hlast]
    rfl

theorem resultFields_of_absent {x : Slot} {i : Fin 8} {seg : Nat} (h6 : seg ≤ 6)
    (h : ∀ r, x.retained = some r → r.body.cells ≤ seg) :
    resultFields x i seg = [num 8 (i.val * 32 + seg * 4 + 1), num 56 0] := by
  have hdescriptor : segmentDescriptor i seg false + 1 = i.val * 32 + seg * 4 + 1 := by
    rw [segmentDescriptor_eq false i.isLt (by omega)]
    rfl
  rw [← hdescriptor, resultFields]
  cases hr : x.retained with
  | none => rfl
  | some r => exact if_neg (Nat.not_lt.mpr (h r hr))

/-- Settles O41: the items one by one. -/
theorem slotGetReports : Obligations.SlotGetReports := by
  unfold Obligations.SlotGetReports
  intro c i s h x g done
  have hdone : ∀ {item : SlotItem} {fs : List Field}, slotItemFields x i item = some fs → done item fs :=
    fun hf => exec_slotGet_done h hf
  refine ⟨hdone ?_, hdone rfl, hdone rfl, fun hn => hdone ?_, fun n f hrun hg hstep => hdone ?_,
    fun r seg hr hseg => hdone ?_, fun seg h6 habs => hdone ?_,
    fun seg hseg => exec_slotGet_none h (if_neg (by omega)), fun n => exec_slotGet_none h rfl,
    fun n item hn => exec_slotGet_range h item hn⟩
  · rw [slotItemFields]
    change some (_ ++ optionalEndpoint g.endpointB ++ _) = _
    cases g.endpointB <;> rfl
  · have hnone : (if x.state = .idle then none else x.run.planStep.map (·.val)) = none := by
      rcases hn with hn | hn
      · rw [if_pos hn]
      · rw [hn]
        exact ite_self _
    rw [slotItemFields, hnone]
    rfl
  · rw [slotItemFields, if_neg hrun, hstep]
    rfl
  · have hcells := r.body.cells_le
    rw [slotItemFields_result (by omega), resultFields_of_present hr hseg]
  · rw [slotItemFields_result h6, resultFields_of_absent h6 habs]

end Sys2Proof.Machine
end

section
/-!
SUPPORT. The operations of a Measurement Slot, one rule for each case (R97 to R111).
-/

namespace Sys2Proof.Machine

/-! ## Results (R109) -/

/-- The record that a slot gives with some flags and some body (R109). -/
def Slot.record (i : Fin 8) (values : Bool) (flags : RunFlags) (body : RecordBody) (x : Slot) : Record :=
  { slot := i, gateIndex := x.run.gateIndex, seq := x.seq, values := values, flags := flags
    body := body }

/-- The slot as a result leaves it (R109, R126). -/
def Slot.resulted (r : Record) (x : Slot) : Slot :=
  { x with
    seq := x.seq + 1, retained := some r
    run :=
      { x.run with
        flags := .clear, gateIndex := min (2 ^ 32 - 1) (x.run.gateIndex + 1 + x.run.passed)
        passed := 0 } }

theorem Slot.resulted_eq {x : Slot} (h : x.run.gateIndex + 1 + x.run.passed < 2 ^ 32 - 1) (r : Record) :
    x.resulted r =
      { x with
        seq := x.seq + 1, retained := some r
        run :=
          { x.run with
            flags := .clear, gateIndex := x.run.gateIndex + 1 + x.run.passed, passed := 0 } } := by
  rw [Slot.resulted, min_eq_right h.le]

section Emit
variable {i : Fin 8} {x : Slot}

theorem Slot.emit_eq (h : x.run.gateIndex < 2 ^ 32 - 1) (values : Bool) (body : RecordBody) :
    x.emit i values body =
      (x.resulted (x.record i values x.run.flags body), x.record i values x.run.flags body) := by
  have hflags : x.run.flags.saturatedIf (x.run.gateIndex == Config.maxGateIndex) = x.run.flags :=
    saturatedIf_false (beq_eq_false_iff_ne.mpr h.ne)
  rw [Slot.emit, hflags]
  rfl

theorem Slot.emitNoSignal_eq (h : x.run.gateIndex < 2 ^ 32 - 1) :
    x.emitNoSignal i =
      (x.resulted (x.record i false { x.run.flags with noSignal := true } (zeroBody x)),
        x.record i false { x.run.flags with noSignal := true } (zeroBody x)) := by
  rw [Slot.emitNoSignal, Slot.emptyBody_eq,
    Slot.emit_eq (x := x.withFlags fun f => { f with noSignal := true }) h]
  rfl

/-- The record of a batch that ends at `t` (R106, R128). -/
def Slot.batchRecord (i : Fin 8) (t : Stamp) (x : Slot) : Record :=
  x.record i true
    { x.run.flags with short := x.run.flags.short || decide (x.run.count < x.config.samples) }
    (.interval x.run.count (x.run.min.getD 0) (x.run.max.getD 0) x.run.sum
      (intervalMean x.run.sum x.run.count) t)

theorem Slot.emitBatch_eq (h : x.run.gateIndex < 2 ^ 32 - 1) (t : Stamp) :
    x.emitBatch i t =
      (({ x with run := { x.run with pendingA := none } } : Slot).resulted (x.batchRecord i t),
        x.batchRecord i t) := by
  let short (f : RunFlags) : RunFlags :=
    { f with short := f.short || decide (x.run.count < x.config.samples) }
  rw [Slot.emitBatch, Slot.emit_eq
    (x := ({ x with run := { x.run with pendingA := none } } : Slot).withFlags short) h]
  rfl

/-- The record of a TOTAL gate that ends at `t` (R107, R129). -/
def Slot.totalRecord (i : Fin 8) (t : Stamp) (x : Slot) : Record :=
  x.record i true x.run.flags
    (.total x.run.countA x.run.countB (netCount x.run.countA x.run.countB) (x.run.tOpen.getD 0) t)

theorem Slot.emitTotal_eq (h : x.run.gateIndex < 2 ^ 32 - 1) (t : Stamp) :
    x.emitTotal i t = (x.resulted (x.totalRecord i t), x.totalRecord i t) := by
  rw [Slot.emitTotal, Slot.emit_eq h]
  rfl

theorem rateSpan_eq (t0 t1 : Stamp) :
    rateSpan t0 t1 =
      (if 0 < stampDiff t1 t0 then (stampDiff t1 t0).toNat else 2 ^ 58 - 1,
        decide (stampDiff t1 t0 ≤ 0)) := by
  by_cases h : 0 < stampDiff t1 t0
  · rw [rateSpan_of_pos h, if_pos h, decide_eq_false (not_le.mpr h)]
  · rw [rateSpan_of_not_pos (not_lt.mp h), if_neg h, decide_eq_true (not_lt.mp h)]

theorem frequency_eq_min (np t : Nat) :
    frequency np t =
      (min (2 ^ 64 - 1) ((2 * np * 1024000000000000 + t) / (2 * t)),
        decide (2 ^ 64 - 1 < (2 * np * 1024000000000000 + t) / (2 * t))) := by
  rw [frequency_eq]
  by_cases h : (2 * np * 1024000000000000 + t) / (2 * t) ≤ 2 ^ 64 - 1
  · rw [if_pos h, min_eq_right h, decide_eq_false (not_lt.mpr h)]
  · rw [if_neg h, min_eq_left (not_le.mp h).le, decide_eq_true (not_le.mp h)]

theorem Slot.emitRate_eq (h : x.run.gateIndex < 2 ^ 32 - 1) (t1 : Stamp) :
    x.emitRate i t1 =
      (x.resulted (rateRecord i x x.run.n t1 x.run.flags),
        rateRecord i x x.run.n t1 x.run.flags) := by
  rw [Slot.emitRate, Slot.emit_eq (x := x.withFlags _) h, rateSpan_eq]
  simp only [frequency_eq_min, meanPeriod_eq]
  rfl

end Emit

/-! ## Further gates (R89, R97) -/

section More
variable {x : Slot}

theorem Slot.withinRepeats_iff (k : Nat) :
    x.withinRepeats k = true ↔ x.config.repeats = 0 ∨ k < x.config.repeats := by
  rw [Slot.withinRepeats, Bool.or_eq_true, beq_iff_eq, decide_eq_true_eq]

theorem Slot.moreGates_repeats (hg : x.config.gate = .timed ∨ ∃ g l, x.config.gate = .external g l) :
    x.moreGates = true ↔ x.run.lastGate = false ∧
      (x.config.repeats = 0 ∨ x.run.gateIndex < x.config.repeats) := by
  rw [← Slot.withinRepeats_iff, Slot.moreGates, Bool.and_eq_true, Bool.not_eq_true']
  rcases hg with hg | ⟨g, l, hg⟩ <;> rw [hg]

theorem Slot.moreGates_plan {f : Fin 64} (hg : x.config.gate = .plan f) :
    x.moreGates = true ↔ x.run.lastGate = false ∧ x.run.stepEnd ≠ none := by
  rw [Slot.moreGates, Bool.and_eq_true, Bool.not_eq_true', hg, ← Option.isSome_iff_ne_none]

theorem Slot.moreGates_open (hg : x.config.gate = .openEnded) :
    x.moreGates = true ↔ x.run.lastGate = false ∧ x.config.kind = .interval ∧
      (x.config.repeats = 0 ∨ x.run.gateIndex < x.config.repeats) := by
  rw [← Slot.withinRepeats_iff, Slot.moreGates, Bool.and_eq_true, Bool.not_eq_true', hg,
    Bool.and_eq_true, beq_iff_eq]

theorem Slot.afterGate_of_none (h : x.moreGates = false) (t : Stamp) : x.afterGate t = x.finish := by
  rw [Slot.afterGate, h]
  rfl

theorem Slot.afterGate_of_timed (h : x.moreGates = true) (hg : x.config.gate = .timed) (t : Stamp) :
    x.afterGate t = x.openTimed t := by
  rw [Slot.afterGate, if_pos h, hg]

theorem Slot.afterGate_of_await (h : x.moreGates = true) (hg : x.config.gate ≠ .timed) (t : Stamp) :
    x.afterGate t = x.awaitGate := by
  rw [Slot.afterGate, if_pos h]
  split
  · next hg' => exact absurd hg' hg
  · rfl

theorem Slot.awaitGate_of_external {g : Fin 16} {l : PinLevel} (hg : x.config.gate = .external g l) :
    x.awaitGate =
      { x with
        state := .armed
        run :=
          { x.run with
            tOpen := none, tClose := none, pendingGate := none, extPhase := some .waitActive } } := by
  rw [Slot.awaitGate, hg]

theorem Slot.awaitGate_of_other (hg : ∀ g l, x.config.gate ≠ .external g l) :
    x.awaitGate =
      { x with
        state := .armed
        run := { x.run with tOpen := none, tClose := none, pendingGate := none } } := by
  rw [Slot.awaitGate]
  split
  · next g l hg' => exact absurd hg' (hg g l)
  · rfl

theorem Slot.nextIndex_of_lt (h : x.run.gateIndex + 1 + x.run.passed < 2 ^ 32 - 1) :
    x.nextIndex = x.run.gateIndex + 1 + x.run.passed := Nat.min_eq_right h.le

end More

/-! ## Opening a gate (R97, R101, R105, R107) -/

section Open
variable {x : Slot}

theorem Slot.openGate_of_rate (hk : x.config.kind = .rate) (t : Stamp) (close : Option Stamp) :
    x.openGate t close =
      { x with
        state := .opening
        run :=
          { x.run with
            tOpen := some t, tClose := close, t0 := none, lastA := none, n := 0 } } := by
  unfold Slot.openGate Slot.withRun
  simp only [hk]

theorem Slot.openGate_of_interval (hk : x.config.kind = .interval) (t : Stamp) (close : Option Stamp) :
    x.openGate t close =
      { x with
        state := .seekA
        run :=
          { x.run with
            tOpen := some t, tClose := close, pendingA := none, count := 0, min := none
            max := none, sum := 0 } } := by
  unfold Slot.openGate Slot.withRun
  simp only [hk]
  rfl

theorem Slot.openGate_of_total (hk : x.config.kind = .total) (t : Stamp) (close : Option Stamp) :
    x.openGate t close =
      { x with
        state := .totalCounting
        run := { x.run with tOpen := some t, tClose := close, countA := 0, countB := 0 } } := by
  unfold Slot.openGate Slot.withRun
  simp only [hk]

theorem Slot.openGate_state_ne (t : Stamp) (close : Option Stamp) : (x.openGate t close).state ≠ .armed := by
  cases hk : x.config.kind with
  | rate => rw [Slot.openGate_of_rate hk]; nofun
  | interval => rw [Slot.openGate_of_interval hk]; nofun
  | total => rw [Slot.openGate_of_total hk]; nofun

end Open

/-! ## Plan steps (R99) -/

/-- The slot in step `m` of the plan that starts at `t`. -/
def Slot.inStep (plan : Bank PlanStep 64) (m : Fin 64) (t : Stamp) (x : Slot) : Slot :=
  { x with
    run :=
      { x.run with
        planStep := some m, stepRecord := some (plan.get m)
        stepEnd := some (t + BitVec.ofNat 59 ((plan.get m).length.toNat * 4096)) } }

section Step
variable {plan : Bank PlanStep 64} {m : Fin 64} {x : Slot}

theorem Slot.startStep_of_measure (hs : x.state ≠ .closing) (hk : (plan.get m).kind = .measure)
    (hl : x.run.lastGate = false) (t : Stamp) :
    x.startStep plan m t =
      (x.inStep plan m t).openGate t
        (some (t + BitVec.ofNat 59 ((plan.get m).length.toNat * 4096))) :=
  (if_pos ⟨hk, hl⟩).trans (if_neg hs)

theorem Slot.startStep_of_wait (hs : x.state ≠ .closing) (hk : (plan.get m).kind = .wait) (t : Stamp) :
    x.startStep plan m t = (x.inStep plan m t).awaitGate :=
  (if_neg fun h => by rw [hk] at h; cases h.1).trans (if_neg hs)

/-- A step that starts in CLOSING: a MEASURE step's gate is the pending gate (R102). -/
theorem Slot.startStep_of_closing (hs : x.state = .closing) (t : Stamp) :
    x.startStep plan m t =
      if (plan.get m).kind = .measure ∧ x.run.lastGate = false then
        (x.inStep plan m t).withRun fun r =>
          { r with
            pendingGate :=
              some ⟨t, some (t + BitVec.ofNat 59 ((plan.get m).length.toNat * 4096)), x.nextIndex,
                .clear⟩ }
      else x.inStep plan m t := by
  by_cases h : (plan.get m).kind = .measure ∧ x.run.lastGate = false
  · rw [if_pos h]
    exact (if_pos h).trans (if_pos hs)
  · rw [if_neg h]
    exact (if_neg h).trans (if_pos hs)

end Step

/-! ## The arm point (R94) -/

/-- The slot from its arm point on, ahead of its first gate. -/
def Slot.live (x : Slot) : Slot :=
  { x with run := { x.run with armAt := none, armWait := false, watching := true } }

section ArmPoint
variable {plan : Bank PlanStep 64} {x : Slot}

theorem Slot.takeArmPoint_timed (hg : x.config.gate = .timed) (t : Stamp) :
    x.takeArmPoint plan t =
      x.live.openGate t (some (t + BitVec.ofNat 59 (x.config.length * 4096))) := by
  unfold Slot.takeArmPoint Slot.withRun
  simp only [hg]
  rfl

theorem Slot.takeArmPoint_open (hg : x.config.gate = .openEnded) (t : Stamp) :
    x.takeArmPoint plan t = x.live.openGate t none := by
  unfold Slot.takeArmPoint Slot.withRun
  simp only [hg]
  rfl

theorem Slot.takeArmPoint_plan {f : Fin 64} (hg : x.config.gate = .plan f) (t : Stamp) :
    x.takeArmPoint plan t = x.live.startStep plan f t := by
  unfold Slot.takeArmPoint Slot.withRun
  simp only [hg]
  rfl

theorem Slot.takeArmPoint_external {g : Fin 16} {l : PinLevel} (hg : x.config.gate = .external g l)
    (t : Stamp) : x.takeArmPoint plan t = x.live := by
  unfold Slot.takeArmPoint Slot.withRun
  simp only [hg]
  rfl

end ArmPoint

/-! ## The close of a gate (R101, R102, R106, R107) -/

section Close
variable {i : Fin 8} {t : Stamp} {x : Slot}

theorem Slot.closeGate_of_opening (hs : x.state = .opening) :
    x.closeGate i t = produce (x.emitNoSignal i) (·.afterGate t) := by
  rw [Slot.closeGate, hs]

theorem Slot.closeGate_of_batch (hs : x.state = .seekA ∨ x.state = .seekB) :
    x.closeGate i t = produce (x.emitBatch i t) (·.afterGate t) := by
  rcases hs with hs | hs <;> rw [Slot.closeGate, hs]

theorem Slot.closeGate_of_total (hs : x.state = .totalCounting ∨ x.state = .held) :
    x.closeGate i t = produce (x.emitTotal i t) (·.afterGate t) := by
  rcases hs with hs | hs <;> rw [Slot.closeGate, hs]

/-- A RATE gate in COUNTING closes: the slot is in CLOSING (R102). -/
theorem Slot.closeGate_of_counting (hs : x.state = .rateCounting) :
    x.closeGate i t =
      (({ x with state := .closing, run := { x.run with tClose := some t } } : Slot).formPending t,
        []) := by
  rw [Slot.closeGate, hs]
  rfl

theorem Slot.formPending_of_none
    (h : ¬ (x.config.gate = .timed ∧ x.run.lastGate = false ∧
      (x.config.repeats = 0 ∨ x.nextIndex < x.config.repeats))) :
    x.formPending t = { x with run := { x.run with pendingGate := none } } := by
  rw [Slot.formPending, if_neg]
  · rfl
  · rw [Bool.and_eq_true, Bool.and_eq_true, decide_eq_true_eq, Bool.not_eq_true',
      Slot.withinRepeats_iff, and_assoc]
    exact h

theorem Slot.formPending_of_more
    (h : x.config.gate = .timed ∧ x.run.lastGate = false ∧
      (x.config.repeats = 0 ∨ x.nextIndex < x.config.repeats)) :
    x.formPending t =
      { x with
        run :=
          { x.run with
            pendingGate :=
              some ⟨t, some (t + BitVec.ofNat 59 (x.config.length * 4096)), x.nextIndex, .clear⟩ } } := by
  rw [Slot.formPending, if_pos]
  · rfl
  · rw [Bool.and_eq_true, Bool.and_eq_true, decide_eq_true_eq, Bool.not_eq_true',
      Slot.withinRepeats_iff, and_assoc]
    exact h

/-- The results that fall where a gate closes at `t`: the record, and what is left as pending A. -/
def Slot.Falls (i : Fin 8) (t : Stamp) (x : Slot) (r : Record) (pendingA : Option PendingA) : Prop :=
  (x.state = .opening ∧ r = x.record i false { x.run.flags with noSignal := true } (zeroBody x) ∧
    pendingA = x.run.pendingA) ∨
  ((x.state = .seekA ∨ x.state = .seekB) ∧ r = x.batchRecord i t ∧ pendingA = none) ∨
  ((x.state = .totalCounting ∨ x.state = .held) ∧ r = x.totalRecord i t ∧ pendingA = x.run.pendingA)

/-- The slot as the result of a closed gate leaves it. -/
def Slot.closed (r : Record) (pendingA : Option PendingA) (x : Slot) : Slot :=
  ({ x with run := { x.run with pendingA := pendingA } } : Slot).resulted r

theorem Slot.closed_eq (h : x.run.gateIndex + 1 + x.run.passed < 2 ^ 32 - 1) (r : Record)
    (pendingA : Option PendingA) :
    x.closed r pendingA =
      { x with
        seq := x.seq + 1, retained := some r
        run :=
          { x.run with
            flags := .clear, gateIndex := x.run.gateIndex + 1 + x.run.passed, passed := 0
            pendingA := pendingA } } :=
  Slot.resulted_eq (x := { x with run := { x.run with pendingA := pendingA } }) h r

theorem Slot.closeGate_of_falls {r : Record} {pendingA : Option PendingA}
    (h : x.Falls i t r pendingA) (hi : x.run.gateIndex < 2 ^ 32 - 1) :
    x.closeGate i t = ((x.closed r pendingA).afterGate t, [r]) := by
  rcases h with ⟨hs, rfl, rfl⟩ | ⟨hs, rfl, rfl⟩ | ⟨hs, rfl, rfl⟩
  · rw [Slot.closeGate_of_opening hs, Slot.emitNoSignal_eq hi]
    rfl
  · rw [Slot.closeGate_of_batch hs, Slot.emitBatch_eq hi]
    rfl
  · rw [Slot.closeGate_of_total hs, Slot.emitTotal_eq hi]
    rfl

end Close

/-! ## Delivered edges at the arm and gate references (R96, R98) -/

section Match
variable {i : Fin 8} {plan : Bank PlanStep 64} {e : Edge} {x : Slot}

theorem Slot.matchArm_of_other (h : x.state ≠ .armed ∨ x.run.armWait = false) :
    x.matchArm plan e = x := by
  rw [Slot.matchArm]
  split
  · next hs _ =>
    have hwait : x.run.armWait = false := h.resolve_left (not_not.mpr hs)
    rw [hwait]
    rfl
  · rfl

section ArmEdge
variable {r : Endpoint} (hs : x.state = .armed) (hsource : x.config.armSource = .armEdge r)
  (hwait : x.run.armWait = true)
include hs hsource hwait

omit hwait in
theorem Slot.matchArm_of_refused (hr : r.admits e = false) : x.matchArm plan e = x := by
  rw [Slot.matchArm, hs, hsource]
  exact if_neg (by rw [hr, Bool.and_false]; decide)

theorem Slot.matchArm_of_admitted (hr : r.admits e = true) :
    x.matchArm plan e =
      if (x.takeArmPoint plan e.stamp).state = .armed then x.takeArmPoint plan e.stamp
      else (x.takeArmPoint plan e.stamp).withFlags fun f => f.use e.marks := by
  rw [Slot.matchArm, hs, hsource]
  exact if_pos (by rw [hr, hwait]; rfl)

/-- The arm edge opens the run's first gate: its marks are recorded (R96, R110). -/
theorem Slot.matchArm_of_open {y : Slot} {close : Option Stamp} (hr : r.admits e = true)
    (hy : x.takeArmPoint plan e.stamp = y.openGate e.stamp close) :
    x.matchArm plan e = (y.openGate e.stamp close).withFlags fun f => f.use e.marks := by
  rw [Slot.matchArm_of_admitted hs hsource hwait hr, hy, if_neg (Slot.openGate_state_ne _ _)]

/-- The arm edge starts the watch, or a WAIT step: its marks are not recorded (R96, R110). -/
theorem Slot.matchArm_of_wait {y : Slot} (hr : r.admits e = true)
    (hy : x.takeArmPoint plan e.stamp = y) (hstate : y.state = .armed) : x.matchArm plan e = y := by
  rw [Slot.matchArm_of_admitted hs hsource hwait hr, hy, if_pos hstate]

end ArmEdge

/-- A gate opens at an edge whose marks are recorded, by the slot's kind. -/
theorem Slot.openGate_use (y : Slot) (t : Stamp) (close : Option Stamp) (m : EdgeMarks) :
    let flags := y.run.flags.use m
    let run : Run := { y.run with tOpen := some t, tClose := close }
    (y.config.kind = .rate → (y.openGate t close).withFlags (fun f => f.use m) = { y with
      state := .opening, run := { run with t0 := none, lastA := none, n := 0, flags := flags } }) ∧
    (y.config.kind = .interval → (y.openGate t close).withFlags (fun f => f.use m) = { y with
      state := .seekA
      run :=
        { run with
          pendingA := none, count := 0, min := none, max := none, sum := 0, flags := flags } }) ∧
    (y.config.kind = .total → (y.openGate t close).withFlags (fun f => f.use m) = { y with
      state := .totalCounting, run := { run with countA := 0, countB := 0, flags := flags } }) := by
  refine ⟨fun hk => ?_, fun hk => ?_, fun hk => ?_⟩
  · rw [Slot.openGate_of_rate hk]
    rfl
  · rw [Slot.openGate_of_interval hk]
    rfl
  · rw [Slot.openGate_of_total hk]
    rfl

theorem toActive_iff (l : PinLevel) (e : Edge) :
    toActive l e = true ↔ (l = .high ∧ e.sense = .rise) ∨ (l = .low ∧ e.sense = .fall) := by
  cases l <;> simp [toActive]

theorem Slot.matchGate_of_other (h : ∀ g l, x.config.gate ≠ .external g l) :
    x.matchGate i e = (x, []) := by
  rw [Slot.matchGate]
  split
  · next g l hg => exact absurd hg (h g l)
  · rfl

section Gate
variable {g : Fin 16} {l : PinLevel} (hg : x.config.gate = .external g l)
include hg

theorem Slot.matchGate_of_unwatched (h : g ≠ e.channel ∨ x.run.watching = false) :
    x.matchGate i e = (x, []) := by
  rw [Slot.matchGate, hg]
  refine if_neg ?_
  rw [Bool.and_eq_true, decide_eq_true_eq]
  rintro ⟨hc, hw⟩
  rcases h with h | h
  · exact h hc
  · cases h.symm.trans hw

variable (hc : g = e.channel) (hw : x.run.watching = true)
include hc hw

omit hg in
theorem Slot.watched : (decide (g = e.channel) && x.run.watching) = true := by
  rw [hw, decide_eq_true hc]
  rfl

theorem Slot.matchGate_armed_active (hs : x.state = .armed) (ha : toActive l e = true) :
    x.matchGate i e =
      if x.run.extPhase = some .waitActive then
        ((x.openGate e.stamp none).withFlags fun f => f.use e.marks, [])
      else (x, []) := by
  rw [Slot.matchGate, hg]
  refine (if_pos (Slot.watched hc hw)).trans ?_
  conv_lhs => rw [hs, ha]

theorem Slot.matchGate_armed_inactive (hs : x.state = .armed) (ha : toActive l e = false) :
    x.matchGate i e = ({ x with run := { x.run with extPhase := some .waitActive } }, []) := by
  rw [Slot.matchGate, hg]
  refine (if_pos (Slot.watched hc hw)).trans ?_
  conv_lhs => rw [hs, ha]
  rfl

theorem Slot.matchGate_closing_active (hs : x.state = .closing) (ha : toActive l e = true) :
    x.matchGate i e =
      if x.run.pendingGate = none ∧ x.run.lastGate = false ∧
          (x.config.repeats = 0 ∨ x.nextIndex < x.config.repeats) then
        ({ x with
          run := { x.run with pendingGate := some ⟨e.stamp, none, x.nextIndex, e.marks⟩ } }, [])
      else (x, []) := by
  rw [Slot.matchGate, hg]
  refine (if_pos (Slot.watched hc hw)).trans ?_
  conv_lhs => rw [hs, ha]
  refine if_congr ?_ rfl rfl
  rw [Bool.and_eq_true, Bool.and_eq_true, Bool.not_eq_true', Slot.withinRepeats_iff,
    Option.isNone_iff_eq_none, and_assoc]

theorem Slot.matchGate_closing_inactive (hs : x.state = .closing) (ha : toActive l e = false) :
    x.matchGate i e =
      (if x.run.pendingGate = none then x
      else { x with run := { x.run with pendingGate := none, passed := x.run.passed + 1 } }, []) := by
  rw [Slot.matchGate, hg]
  refine (if_pos (Slot.watched hc hw)).trans ?_
  conv_lhs => rw [hs, ha]
  cases hp : x.run.pendingGate <;> rfl

/-- While a gate is open, an edge to the active level passes by (R98). -/
theorem Slot.matchGate_open_active (ha : toActive l e = true) (h1 : x.state ≠ .armed)
    (h2 : x.state ≠ .closing) : x.matchGate i e = (x, []) := by
  rw [Slot.matchGate, hg]
  refine (if_pos (Slot.watched hc hw)).trans ?_
  rw [ha]
  cases hs : x.state with
  | armed => exact absurd hs h1
  | closing => exact absurd hs h2
  | idle | opening | rateCounting | seekA | seekB | totalCounting | held => rfl

/-- An edge to the inactive level closes an open gate, its marks recorded (R98, R110). -/
theorem Slot.matchGate_open_inactive (ha : toActive l e = false) (h0 : x.state ≠ .idle)
    (h1 : x.state ≠ .armed) (h2 : x.state ≠ .closing) :
    x.matchGate i e = (x.withFlags fun f => f.use e.marks).closeGate i e.stamp := by
  rw [Slot.matchGate, hg]
  refine (if_pos (Slot.watched hc hw)).trans ?_
  rw [ha]
  cases hs : x.state with
  | idle => exact absurd hs h0
  | armed => exact absurd hs h1
  | closing => exact absurd hs h2
  | opening | rateCounting | seekA | seekB | totalCounting | held => rfl

end Gate
end Match

end Sys2Proof.Machine
end

section
/-!
SUPPORT. What a slot does with the edges of its arm and gate references (R93, R96, R98, R102, R103).
-/

namespace Sys2Proof.Machine

section Closed
variable {x : Slot} {r : Record} {a : Option PendingA} {g : Fin 16} {l : PinLevel}

/-- After a result under EXTERNAL the slot waits for the next gate, while there is one (R98, R102). -/
theorem Slot.closed_awaits (hg : x.config.gate = .external g l)
    (hi : x.run.gateIndex + 1 + x.run.passed < 2 ^ 32 - 1) (hl : x.run.lastGate = false)
    (hr : x.config.repeats = 0 ∨ x.run.gateIndex + 1 + x.run.passed < x.config.repeats) (t : Stamp) :
    (x.closed r a).afterGate t =
      { x with
        state := .armed, seq := x.seq + 1, retained := some r
        run :=
          { x.run with
            flags := .clear, passed := 0, gateIndex := x.run.gateIndex + 1 + x.run.passed, tOpen := none
            tClose := none, pendingGate := none, extPhase := some .waitActive, pendingA := a } } := by
  rw [Slot.closed_eq hi]
  refine (Slot.afterGate_of_await ?_ ?_ t).trans (Slot.awaitGate_of_external hg)
  · refine (Slot.moreGates_repeats ?_).mpr ⟨hl, hr⟩
    exact .inr ⟨g, l, hg⟩
  · rw [hg]
    nofun

theorem Slot.closed_ends (hg : x.config.gate = .external g l)
    (hi : x.run.gateIndex + 1 + x.run.passed < 2 ^ 32 - 1)
    (h : x.run.lastGate = true ∨
      (x.config.repeats ≠ 0 ∧ x.config.repeats ≤ x.run.gateIndex + 1 + x.run.passed)) (t : Stamp) :
    (x.closed r a).afterGate t =
      { x with
        state := .idle, seq := x.seq + 1, retained := some r
        run := { Run.empty with gateIndex := x.run.gateIndex + 1 + x.run.passed } } := by
  rw [Slot.closed_eq hi, Slot.afterGate_of_none]
  · rfl
  · rw [← Bool.not_eq_true]
    intro hmore
    obtain ⟨hl, hr⟩ := (Slot.moreGates_repeats (by exact .inr ⟨g, l, hg⟩)).mp hmore
    rcases h with h | ⟨hne, hle⟩
    · cases h.symm.trans hl
    · exact hr.elim hne (Nat.not_lt.mpr hle)

end Closed

/-- Settles O47: the arm reference and the gate reference, state by state. -/
theorem armAndGateEdges : Obligations.ArmAndGateEdges := by
  unfold Obligations.ArmAndGateEdges
  intro i plan e x used begun
  refine ⟨fun r hs hsource hwait => ⟨Slot.matchArm_of_refused hs hsource, fun hr => ?_⟩,
    Slot.matchArm_of_other, rfl, Slot.matchGate_of_other, fun g l hg => ?_⟩
  · intro opens
    have hopens : ∀ (y : Slot) (close : Option Stamp) (run : Run), y = { x with run := run } →
        run.flags = x.run.flags → x.takeArmPoint plan e.stamp = y.openGate e.stamp close →
        opens close run := fun y close run hy hflags htake => by
      obtain ⟨hrate, hinterval, htotal⟩ := Slot.openGate_use y e.stamp close e.marks
      have hmatch := Slot.matchArm_of_open hs hsource hwait hr htake
      subst hy
      dsimp only at hrate hinterval htotal hmatch
      rw [hflags] at hrate hinterval htotal
      exact ⟨fun hk => hmatch.trans (hrate hk), fun hk => hmatch.trans (hinterval hk),
        fun hk => hmatch.trans (htotal hk)⟩
    refine ⟨fun hg => ?_, fun hg => ?_, fun g l hg => ?_, fun f hg hl => ?_⟩
    · exact hopens x.live _ begun rfl rfl (Slot.takeArmPoint_timed hg _)
    · exact hopens x.live _ begun rfl rfl (Slot.takeArmPoint_open hg _)
    · exact Slot.matchArm_of_wait hs hsource hwait hr (Slot.takeArmPoint_external hg _) hs
    · intro stop going
      have hlive : x.live.state ≠ .closing := by
        change x.state ≠ .closing
        rw [hs]
        nofun
      refine ⟨fun hk => ?_, fun hk => ?_⟩
      · exact hopens (x.live.inStep plan f e.stamp) stop going rfl rfl
          ((Slot.takeArmPoint_plan hg _).trans (Slot.startStep_of_measure hlive hk hl _))
      · have hother : ∀ g l, (x.live.inStep plan f e.stamp).config.gate ≠ .external g l := fun g l h => by
          cases hg.symm.trans h
        rw [Slot.matchArm_of_wait hs hsource hwait hr ((Slot.takeArmPoint_plan hg _).trans
          ((Slot.startStep_of_wait hlive hk _).trans (Slot.awaitGate_of_other hother))) rfl, ← hs]
        rfl
  · intro active
    refine ⟨Slot.matchGate_of_unwatched hg, fun hc hw => ?_⟩
    have hactive : active → toActive l e = true := (toActive_iff l e).mpr
    have hpassive : ¬ active → toActive l e = false := fun h =>
      Bool.eq_false_iff.mpr (mt (toActive_iff l e).mp h)
    refine ⟨fun hs hp => ⟨fun ha => ?_, fun ha => ?_⟩, fun hs hp => ?_, fun hs => ⟨fun ha => ?_, fun ha => ?_⟩,
      fun hs hi ha => ?_, fun hs ha => ?_, fun hs ha => ?_, fun hi ha => ?_⟩
    · rw [Slot.matchGate_armed_active hg hc hw hs (hactive ha), hp]
      rfl
    · exact Slot.matchGate_armed_inactive hg hc hw hs (hpassive ha)
    · obtain ⟨hrate, hinterval, htotal⟩ := Slot.openGate_use x e.stamp none e.marks
      have hopen := fun ha => (Slot.matchGate_armed_active (i := i) hg hc hw hs (hactive ha)).trans (if_pos hp)
      refine ⟨fun ha hk => ?_, fun ha hk => ?_, fun ha hk => ?_, fun ha => ?_⟩
      · exact (hopen ha).trans (congrArg (·, []) (hrate hk))
      · exact (hopen ha).trans (congrArg (·, []) (hinterval hk))
      · exact (hopen ha).trans (congrArg (·, []) (htotal hk))
      · rw [Slot.matchGate_armed_inactive hg hc hw hs (hpassive ha), ← hp]
    · exact Slot.matchGate_open_active hg hc hw (hactive ha) (by rw [hs]; nofun) (by rw [hs]; nofun)
    · have hgate : (x.withFlags fun f => f.use e.marks).config.gate = .external g l := hg
      rw [Slot.matchGate_open_inactive hg hc hw (hpassive ha) (by rw [hs]; nofun) (by rw [hs]; nofun)
        (by rw [hs]; nofun), Slot.closeGate_of_counting (by exact hs),
        Slot.formPending_of_none fun h => by cases hgate.symm.trans h.1]
      rfl
    · intro index
      rw [Slot.matchGate_closing_active hg hc hw hs (hactive ha), Slot.nextIndex_of_lt hi]
      refine ⟨fun hp hl hr => if_pos ⟨hp, hl, hr⟩, fun h => if_neg ?_⟩
      rintro ⟨hp, hl, hr⟩
      rcases h with h | h | ⟨hne, hle⟩
      · exact h hp
      · cases h.symm.trans hl
      · exact hr.elim hne (Nat.not_lt.mpr hle)
    · exact Slot.matchGate_closing_inactive hg hc hw hs (hpassive ha)
    · refine Slot.matchGate_open_active hg hc hw (hactive ha) ?_ ?_ <;>
        rcases hs with h | h | h | h | h <;> rw [h] <;> nofun
    · intro index closes
      have hcloses : ∀ values flags body a,
          (x.withFlags fun f => f.use e.marks).Falls i e.stamp (x.record i values flags body) a →
          x.state ≠ .idle → x.state ≠ .armed → x.state ≠ .closing → closes values flags body a :=
        fun values flags body a hfalls h0 h1 h2 => by
          have hclose := (Slot.matchGate_open_inactive (i := i) hg hc hw (hpassive ha) h0 h1 h2).trans
            (Slot.closeGate_of_falls hfalls (by
              change x.run.gateIndex < _
              omega))
          refine ⟨fun hl hr => hclose.trans ?_, fun h => hclose.trans ?_⟩
          · rw [Slot.closed_awaits (x := x.withFlags fun f => f.use e.marks) hg hi hl hr]
            rfl
          · rw [Slot.closed_ends (x := x.withFlags fun f => f.use e.marks) hg hi h]
            rfl
      refine ⟨fun hs hk => ?_, fun hs => ?_, fun hs => ?_⟩
      · refine hcloses _ _ _ _ (.inl ⟨hs, ?_, rfl⟩) (by rw [hs]; nofun) (by rw [hs]; nofun) (by rw [hs]; nofun)
        have hbody : zeroBody (x.withFlags fun f => f.use e.marks) = .rate x.run.prescale 0 0 0 0 0 := by
          rw [zeroBody, show (x.withFlags fun f => f.use e.marks).config.kind = .rate from hk]
          rfl
        rw [hbody]
        rfl
      · exact hcloses _ _ _ _ (.inr (.inl ⟨hs, rfl, rfl⟩)) (by rcases hs with h | h <;> rw [h] <;> nofun)
          (by rcases hs with h | h <;> rw [h] <;> nofun) (by rcases hs with h | h <;> rw [h] <;> nofun)
      · exact hcloses _ _ _ _ (.inr (.inr ⟨hs, rfl, rfl⟩)) (by rcases hs with h | h <;> rw [h] <;> nofun)
          (by rcases hs with h | h <;> rw [h] <;> nofun) (by rcases hs with h | h <;> rw [h] <;> nofun)

end Sys2Proof.Machine
end

section
/-!
SUPPORT. What a slot does with the edges of its endpoints (R101, R102, R105 to R107, R122, R123).
-/

namespace Sys2Proof.Machine

/-! ## RATE -/

section Rate
variable {i : Fin 8} {e : Edge} {x : Slot}

theorem Slot.matchEndpoints_rate (hk : x.config.kind = .rate) :
    x.matchEndpoints i e = x.rateEdge i e := by rw [Slot.matchEndpoints, hk]

theorem Slot.matchEndpoints_interval (hk : x.config.kind = .interval) :
    x.matchEndpoints i e = x.intervalEdge i e := by rw [Slot.matchEndpoints, hk]

theorem Slot.matchEndpoints_total (hk : x.config.kind = .total) :
    x.matchEndpoints i e = (x.totalEdge e, []) := by rw [Slot.matchEndpoints, hk]

/-- An endpoint A edge counts in N (R101, R102). -/
theorem Slot.countEdge_eq (e : Edge) (x : Slot) :
    x.countEdge e =
      { x with
        run :=
          { x.run with
            n := min (2 ^ 40 - 1) (x.run.n + 1)
            flags := (x.run.flags.use e.marks).saturatedIf
              (decide (min (2 ^ 40 - 1) (x.run.n + 1) = 2 ^ 40 - 1)) } } := by
  rw [Slot.countEdge, countUp_eq_min]
  rfl

theorem Slot.rateEdge_of_other (ha : x.config.endpointA.admits e = false) : x.rateEdge i e = (x, []) :=
  if_neg (by rw [ha]; decide)

variable (ha : x.config.endpointA.admits e = true)
include ha

theorem Slot.rateEdge_of_opening (hs : x.state = .opening) :
    x.rateEdge i e =
      ({ x with
        state := .rateCounting
        run :=
          { x.run with
            t0 := some e.stamp, lastA := some e.stamp, n := 0
            flags := x.run.flags.use e.marks } }, []) := by
  rw [Slot.rateEdge, if_pos ha, hs]
  rfl

theorem Slot.rateEdge_of_counting (hs : x.state = .rateCounting) :
    x.rateEdge i e =
      ((x.countEdge e).withRun fun r => { r with lastA := some e.stamp }, []) := by
  rw [Slot.rateEdge, if_pos ha, hs]

theorem Slot.rateEdge_of_closing (hs : x.state = .closing) : x.rateEdge i e = x.closingEdge i e := by
  rw [Slot.rateEdge, if_pos ha, hs]

end Rate

/-- The slot as the result of the closing edge leaves it, ahead of what follows (R102, R109). -/
theorem Slot.closingEdge_eq {i : Fin 8} {x : Slot} (hi : x.run.gateIndex + 1 + x.run.passed < 2 ^ 32 - 1)
    (e : Edge) :
    let n := min (2 ^ 40 - 1) (x.run.n + 1)
    let r := rateRecord i x n e.stamp
      ((x.run.flags.use e.marks).saturatedIf (decide (n = 2 ^ 40 - 1)))
    x.closingEdge i e =
      (({ x with
        seq := x.seq + 1, retained := some r
        run :=
          { x.run with
            n := n, flags := .clear, gateIndex := x.run.gateIndex + 1 + x.run.passed
            passed := 0 } } : Slot).afterClosing e x.run.pendingGate, [r]) := by
  intro n r
  rw [Slot.closingEdge, Slot.countEdge_eq, Slot.emitRate_eq, Slot.resulted_eq]
  · rfl
  · exact hi
  · change x.run.gateIndex < _
    omega

/-- Under EXTERNAL and PLAN a RATE run has further gates as R97 and R99 say; under OPEN it has none. -/
theorem Slot.moreGates_rate {y : Slot} (hk : y.config.kind = .rate) (hg : y.config.gate ≠ .timed) :
    y.moreGates = true ↔ y.run.lastGate = false ∧
      ((∃ g l, y.config.gate = .external g l ∧
          (y.config.repeats = 0 ∨ y.run.gateIndex < y.config.repeats)) ∨
        ∃ f, y.config.gate = .plan f ∧ y.run.stepEnd ≠ none) := by
  cases hgate : y.config.gate with
  | timed => exact absurd hgate hg
  | external g l =>
    rw [Slot.moreGates_repeats (.inr ⟨g, l, hgate⟩)]
    simp
  | plan f =>
    rw [Slot.moreGates_plan hgate]
    simp
  | openEnded =>
    rw [Slot.moreGates_open hgate, hk]
    simp

theorem Slot.afterClosing_none_of_more {y : Slot} (h : y.moreGates = true) (e : Edge) :
    y.afterClosing e none = y.awaitGate := if_pos h

theorem Slot.afterClosing_none_of_last {y : Slot} (h : y.moreGates = false) (e : Edge) :
    y.afterClosing e none = y.finish := if_neg (by rw [h]; decide)

/-! ## INTERVAL -/

theorem intervalSample_eq (a b : Stamp) :
    intervalSample a b =
      (if 0 < stampDiff b a ∧ stampDiff b a < 2 ^ 56 then (stampDiff b a).toNat else 2 ^ 56 - 1,
        !decide (0 < stampDiff b a ∧ stampDiff b a < 2 ^ 56)) := by
  by_cases h : 0 < stampDiff b a ∧ stampDiff b a < 2 ^ 56
  · rw [intervalSample, if_pos h, if_pos h, decide_eq_true h]
    rfl
  · rw [intervalSample, if_neg h, if_neg h, decide_eq_false h]
    rfl

theorem addSample_eq (sum v : Nat) :
    addSample sum v = (min (2 ^ 64 - 1) (sum + v), decide (2 ^ 64 - 1 < sum + v)) := by
  by_cases h : 2 ^ 64 - 1 < sum + v
  · rw [addSample, if_pos h, min_eq_left h.le, decide_eq_true h]
  · rw [addSample, if_neg h, min_eq_right (not_lt.mp h), decide_eq_false h]

theorem leastOf_some (m v : Nat) : leastOf (some m) v = min m v := by
  rw [leastOf]
  split <;> omega

theorem greatestOf_some (m v : Nat) : greatestOf (some m) v = max m v := by
  rw [greatestOf]
  split <;> omega

/-- The statistics of a batch with a sample added (R122, R123). -/
def Slot.sampled (q : PendingA) (e : Edge) (x : Slot) : Run :=
  let d := stampDiff e.stamp q.stamp
  let sample : Nat := if 0 < d ∧ d < 2 ^ 56 then d.toNat else 2 ^ 56 - 1
  { x.run with
    count := x.run.count + 1, min := some (leastOf x.run.min sample)
    max := some (greatestOf x.run.max sample), sum := min (2 ^ 64 - 1) (x.run.sum + sample)
    flags := ((x.run.flags.use q.marks).use e.marks).saturatedIf
      (!decide (0 < d ∧ d < 2 ^ 56) || decide (2 ^ 64 - 1 < x.run.sum + sample)) }

section Interval
variable {i : Fin 8} {e : Edge} {x : Slot} {q : PendingA}

theorem Slot.recordSample_eq (q : PendingA) (e : Edge) (x : Slot) :
    x.recordSample q e = { x with run := x.sampled q e } := by
  rw [Slot.recordSample, intervalSample_eq, addSample_eq]
  rfl

theorem Slot.intervalEdge_of_seekA (hs : x.state = .seekA) :
    x.intervalEdge i e =
      if x.config.endpointA.admits e then
        ({ x with state := .seekB, run := { x.run with pendingA := some ⟨e.stamp, e.marks⟩ } }, [])
      else (x, []) := by
  rw [Slot.intervalEdge]
  conv_lhs => rw [hs]

section SeekB
variable (hs : x.state = .seekB) (hq : x.run.pendingA = some q)
include hs hq

theorem Slot.intervalEdge_of_seekB :
    x.intervalEdge i e =
      if x.admitsB e then if e.stamp = q.stamp then (x, []) else x.completeSample i q e
      else if x.config.endpointA.admits e && x.config.restart == .takeLatest then
        ({ x with run := { x.run with pendingA := some ⟨e.stamp, e.marks⟩ } }, [])
      else (x, []) := by
  rw [Slot.intervalEdge]
  conv_lhs => rw [hs, hq]
  rfl

end SeekB

theorem Slot.completeSample_of_less (h : x.run.count + 1 < x.config.samples) :
    x.completeSample i q e =
      if x.config.shared then
        ({ x with run := { x.sampled q e with pendingA := some ⟨e.stamp, e.marks⟩ } }, [])
      else ({ x with state := .seekA, run := { x.sampled q e with pendingA := none } }, []) := by
  rw [Slot.completeSample, Slot.recordSample_eq]
  exact if_neg (Nat.not_le.mpr h)

/-- The M-th sample ends the batch (R106): its result, ahead of what follows. -/
theorem Slot.completeSample_of_last (h : x.config.samples ≤ x.run.count + 1)
    (hp : x.run.passed = 0) (hi : x.run.gateIndex + 1 < 2 ^ 32 - 1) :
    let run := x.sampled q e
    let r := x.record i true run.flags
      (.interval run.count (run.min.getD 0) (run.max.getD 0) run.sum (intervalMean run.sum run.count)
        e.stamp)
    x.completeSample i q e =
      (({ x with
        seq := x.seq + 1, retained := some r
        run :=
          { run with
            pendingA := none, flags := .clear
            gateIndex := x.run.gateIndex + 1 } } : Slot).afterBatch e, [r]) := by
  intro run r
  have hrecord : ({ x with run := run } : Slot).batchRecord i e.stamp = r := by
    rw [Slot.batchRecord, decide_eq_false (by exact Nat.not_lt.mpr h), Bool.or_false]
    rfl
  have hafter : ({ x with
      seq := x.seq + 1, retained := some r
      run :=
        { run with
          pendingA := none, flags := .clear, gateIndex := x.run.gateIndex + 1 + x.run.passed
          passed := 0 } } : Slot) = { x with
      seq := x.seq + 1, retained := some r
      run := { run with pendingA := none, flags := .clear, gateIndex := x.run.gateIndex + 1 } } := by
    have hpassed : run.passed = 0 := hp
    have hindex : x.run.gateIndex + 1 + x.run.passed = x.run.gateIndex + 1 := by omega
    rw [hindex, ← hpassed]
  rw [Slot.completeSample, Slot.recordSample_eq]
  refine (if_pos h).trans ?_
  rw [Slot.emitBatch_eq, hrecord, Slot.resulted_eq]
  · exact congrArg (fun y : Slot => (y.afterBatch e, [r])) hafter
  · change x.run.gateIndex + 1 + x.run.passed < _
    omega
  · change x.run.gateIndex < _
    omega

end Interval

/-- Whether an INTERVAL run goes on after a batch (R97, R99, R100, R106). -/
theorem Slot.moreGates_interval {y : Slot} (hk : y.config.kind = .interval)
    (hg : ∀ f, y.config.gate ≠ .plan f) :
    y.moreGates = true ↔
      y.run.lastGate = false ∧ (y.config.repeats = 0 ∨ y.run.gateIndex < y.config.repeats) := by
  cases hgate : y.config.gate with
  | timed => exact Slot.moreGates_repeats (.inl hgate)
  | external g l => exact Slot.moreGates_repeats (.inr ⟨g, l, hgate⟩)
  | plan f => exact absurd hgate (hg f)
  | openEnded =>
    rw [Slot.moreGates_open hgate]
    simp [hk]

/-- The next batch of an INTERVAL run, in a new gate or in the same (R106). -/
theorem Slot.nextBatch_eq {y : Slot} (hk : y.config.kind = .interval) (e : Edge) :
    y.nextBatch e =
      { y with
        state := if y.config.shared = true then .seekB else .seekA
        run :=
          { y.run with
            pendingA := if y.config.shared = true then some ⟨e.stamp, e.marks⟩ else none
            count := 0, min := none, max := none, sum := 0
            tOpen := if y.config.gate = .timed then some e.stamp else y.run.tOpen
            tClose :=
              if y.config.gate = .timed then
                some (e.stamp + BitVec.ofNat 59 (y.config.length * 4096))
              else y.run.tClose } } := by
  have htimed : y.openTimed e.stamp = _ := Slot.openGate_of_interval hk _ _
  rw [Slot.nextBatch, htimed]
  by_cases hg : y.config.gate = .timed <;> by_cases hsh : y.config.shared = true <;>
    simp only [hg, hsh, if_true, if_false, Bool.false_eq_true] <;> rfl

/-! ## TOTAL -/

theorem Slot.totalEdge_of_held {e : Edge} {x : Slot} (hs : x.state ≠ .totalCounting) :
    x.totalEdge e = x := if_neg hs

theorem Slot.totalEdge_of_counting {e : Edge} {x : Slot} (hs : x.state = .totalCounting) :
    let a := x.config.endpointA.admits e
    let b := x.admitsB e
    let countA := if a then min (2 ^ 40 - 1) (x.run.countA + 1) else x.run.countA
    let countB := if b then min (2 ^ 40 - 1) (x.run.countB + 1) else x.run.countB
    x.totalEdge e =
      { x with
        run :=
          { x.run with
            countA := countA, countB := countB
            flags :=
              if a || b then
                (x.run.flags.use e.marks).saturatedIf
                  ((a && decide (countA = 2 ^ 40 - 1)) || (b && decide (countB = 2 ^ 40 - 1)))
              else x.run.flags } } := by
  intro a b countA countB
  rw [Slot.totalEdge, if_pos hs, countUp_eq_min, countUp_eq_min]
  change (if a || b then _ else x) = _
  by_cases hab : (a || b) = true
  · rw [if_pos hab, if_pos hab]
    rfl
  · have ha : a = false := by
      cases ha : a
      · rfl
      · rw [ha] at hab; exact absurd rfl hab
    have hb : b = false := by
      cases hb : b
      · rfl
      · rw [hb, Bool.or_true] at hab; exact absurd rfl hab
    rw [if_neg hab, if_neg hab]
    simp only [countA, countB, ha, hb, Bool.false_eq_true, if_false]

/-- Settles O48: the endpoints of the three kinds, state by state. -/
theorem edgesAtTheEndpoints : Obligations.EdgesAtTheEndpoints := by
  unfold Obligations.EdgesAtTheEndpoints
  intro i e x a b used
  refine ⟨fun hk => ?_, fun hk => ?_, fun hk => ?_⟩
  · rw [Slot.matchEndpoints_rate hk]
    refine ⟨Slot.rateEdge_of_other, Slot.rateEdge_of_opening, fun ha hs hn => ?_, fun ha hs hn hle => ?_,
      fun ha hs hle hi => ?_⟩
    · rw [Slot.rateEdge_of_counting ha hs, Slot.countEdge_eq, min_eq_right hn.le,
        saturatedIf_false (decide_eq_false hn.ne)]
      rfl
    · rw [Slot.rateEdge_of_counting ha hs, Slot.countEdge_eq, min_eq_left hn,
        saturatedIf_true (decide_eq_true rfl)]
      rfl
    · intro n r
      let z : Slot :=
        { x with
          seq := x.seq + 1, retained := some r
          run :=
            { x.run with
              n := n, flags := .clear, gateIndex := x.run.gateIndex + 1 + x.run.passed
              passed := 0 } }
      have hclose : x.closingEdge i e = (z.afterClosing e x.run.pendingGate, [r]) := Slot.closingEdge_eq hi e
      refine ⟨_, (Slot.rateEdge_of_closing ha hs).trans hclose, ?_⟩
      cases hp : x.run.pendingGate with
      | some p =>
        refine ⟨rfl, rfl, rfl, fun q hq => ?_, nofun⟩
        cases hq
        rfl
      | none =>
        have hrate := Slot.moreGates_rate (y := z) hk
        cases hmore : z.moreGates with
        | true =>
          rw [Slot.afterClosing_none_of_more hmore]
          refine ⟨rfl, rfl, rfl, nofun, fun _ => ?_⟩
          intro index further
          refine ⟨fun _ => ⟨rfl, rfl, rfl, rfl, rfl, rfl, rfl, rfl⟩, fun hnot hg => ?_, fun hg hlast => ?_⟩
          · exact absurd ((hrate hg).mp hmore) hnot
          · obtain ⟨hl, hr⟩ := (Slot.moreGates_repeats (x := z) (.inl hg)).mp hmore
            rcases hlast with h | ⟨hne, hle⟩
            · cases h.symm.trans hl
            · exact (hr.elim hne (Nat.not_lt.mpr hle)).elim
        | false =>
          rw [Slot.afterClosing_none_of_last hmore]
          refine ⟨rfl, rfl, rfl, nofun, fun _ => ?_⟩
          intro index further
          refine ⟨fun hfurther => ?_, fun _ _ => ⟨rfl, rfl⟩, fun _ _ => ⟨rfl, rfl⟩⟩
          have hg : x.config.gate ≠ .timed := fun hg => by
            rcases hfurther.2 with ⟨g, l, h, -⟩ | ⟨f, h, -⟩ <;> cases hg.symm.trans h
          cases hmore.symm.trans ((hrate hg).mpr hfurther)
  · rw [Slot.matchEndpoints_interval hk]
    refine ⟨fun ha hs => (Slot.intervalEdge_of_seekA hs).trans (if_pos ha), fun ha hs =>
      (Slot.intervalEdge_of_seekA hs).trans (if_neg (Bool.eq_false_iff.mp ha)), fun q hs hq => ?_⟩
    intro d sample least most sum flags
    have hleast : leastOf x.run.min sample = least := by
      dsimp only [least]
      cases x.run.min with
      | none => rfl
      | some m => exact leastOf_some m sample
    have hmost : greatestOf x.run.max sample = most := by
      dsimp only [most]
      cases x.run.max with
      | none => rfl
      | some m => exact greatestOf_some m sample
    have hrun : x.sampled q e =
        { x.run with
          count := x.run.count + 1, min := some least, max := some most, sum := sum
          flags := flags } := by
      rw [← hleast, ← hmost]
      rfl
    rw [Slot.intervalEdge_of_seekB hs hq]
    refine ⟨fun hb heq => (if_pos hb).trans (if_pos heq), fun hb ha => ?_, fun hb ha => ?_,
      fun hb hne hlt => ?_, fun hb hne hle hp hi => ?_⟩
    · refine (if_neg (Bool.eq_false_iff.mp hb)).trans ?_
      rw [show x.config.endpointA.admits e = true from ha, Bool.true_and]
      by_cases hr : x.config.restart = .takeLatest
      · rw [if_pos (beq_iff_eq.mpr hr), if_pos hr]
      · rw [if_neg (mt beq_iff_eq.mp hr), if_neg hr]
    · refine (if_neg (Bool.eq_false_iff.mp hb)).trans (if_neg ?_)
      rw [show x.config.endpointA.admits e = false from ha, Bool.false_and]
      decide
    · refine (if_pos hb).trans ((if_neg hne).trans ?_)
      rw [Slot.completeSample_of_less hlt, hrun]
      by_cases hsh : x.config.shared = true
      · rw [if_pos hsh, if_pos hsh, if_pos hsh, ← hs]
      · rw [if_neg hsh, if_neg hsh, if_neg hsh]
    · intro r further
      let z : Slot :=
        { x with
          seq := x.seq + 1, retained := some r
          run :=
            { x.run with
              count := x.run.count + 1, min := some least, max := some most, sum := sum
              pendingA := none, flags := .clear, gateIndex := x.run.gateIndex + 1 } }
      have hlast : x.completeSample i q e = (z.afterBatch e, [r]) := by
        rw [Slot.completeSample_of_last hle hp hi, hrun]
        rfl
      have hmore : z.moreGates = true ↔ further := by
        dsimp only [further]
        split
        · next f hg => exact Slot.moreGates_plan (x := z) hg
        · next hg => exact Slot.moreGates_interval (y := z) hk hg
      refine ⟨fun hfurther => ?_, fun hnot => ?_⟩ <;>
        refine (if_pos hb).trans ((if_neg hne).trans (hlast.trans ?_)) <;> rw [Slot.afterBatch]
      · rw [if_pos (hmore.mpr hfurther), Slot.nextBatch_eq (y := z) hk]
      · rw [if_neg (mt hmore.mp hnot)]
        rfl
  · rw [Slot.matchEndpoints_total hk]
    refine ⟨fun hs => ?_, fun hs _ _ => ?_⟩
    · rw [Slot.totalEdge_of_held (by rw [hs]; nofun)]
    · rw [Slot.totalEdge_of_counting hs]
      rfl

end Sys2Proof.Machine
end

section
/-!
SUPPORT. STOP, and the result of a gate whose closing edge did not come (R104, R111).
-/

namespace Sys2Proof.Machine

/-! ## What ends a run keeps -/

section Finish
variable (y : Slot) (t : Stamp)

theorem Slot.openGate_finish (close : Option Stamp) : (y.openGate t close).finish = y.finish := by
  cases hk : y.config.kind with
  | rate => rw [Slot.openGate_of_rate hk]; rfl
  | interval => rw [Slot.openGate_of_interval hk]; rfl
  | total => rw [Slot.openGate_of_total hk]; rfl

theorem Slot.afterGate_finish : (y.afterGate t).finish = y.finish := by
  rw [Slot.afterGate]
  split
  · split
    · exact Slot.openGate_finish _ _ _
    · rfl
  · rfl

/-- A run that ends behind a pending gate has come to that gate's index (R102, R126). -/
theorem Slot.afterExpiry_finish (pending : Option PendingGate) :
    (y.afterExpiry t pending).finish =
      { y with
        state := .idle
        run :=
          { Run.empty with gateIndex := (pending.map (·.index)).getD y.run.gateIndex } } := by
  cases pending with
  | none => exact Slot.afterGate_finish y t
  | some p =>
    rw [Slot.afterExpiry]
    dsimp only
    split
    · exact Slot.openGate_finish _ _ _
    · exact Slot.openGate_finish (y.withRun fun r => { r with gateIndex := p.index, pendingGate := none }) _ _

end Finish

/-- The record of a gate whose closing edge did not come (R104, R130). -/
def Slot.lateRecord (i : Fin 8) (x : Slot) : Record :=
  if 0 < x.run.n then rateRecord i x x.run.n (x.run.lastA.getD 0) { x.run.flags with closeLate := true }
  else x.record i false { x.run.flags with noSignal := true } (zeroBody x)

theorem Slot.emitLate_eq {i : Fin 8} {x : Slot} (h : x.run.gateIndex < 2 ^ 32 - 1) :
    x.emitLate i = (x.resulted (x.lateRecord i), x.lateRecord i) := by
  rw [Slot.emitLate, Slot.lateRecord]
  by_cases hn : 0 < x.run.n
  · rw [if_pos hn, if_pos hn, Slot.emitRate_eq (x := x.withFlags _) h]
    rfl
  · rw [if_neg hn, if_neg hn, Slot.emitNoSignal_eq h]

theorem Slot.expireClose_eq {i : Fin 8} {x : Slot} (h : x.run.gateIndex < 2 ^ 32 - 1) (t : Stamp) :
    x.expireClose i t =
      ((x.resulted (x.lateRecord i)).afterExpiry t x.run.pendingGate, [x.lateRecord i]) := by
  rw [Slot.expireClose, Slot.emitLate_eq h]
  rfl

/-! ## STOP, state by state (Table 7-4) -/

section Stop
variable {i : Fin 8} {w : Stamp} {x : Slot}

/-- The slot with STOPPED among its flags. -/
def Slot.withStopped (x : Slot) : Slot :=
  { x with run := { x.run with flags := { x.run.flags with stopped := true } } }

theorem Slot.stop_of_idle (hs : x.state = .idle) : x.stop i w = none := by
  rw [Slot.stop, hs]

theorem Slot.stop_of_armed (hs : x.state = .armed) : x.stop i w = some (x.finish, []) := by
  rw [Slot.stop, hs]

theorem Slot.stop_of_opening (hs : x.state = .opening) (h : x.run.gateIndex < 2 ^ 32 - 1) :
    let r := x.record i false { x.run.flags with stopped := true, noSignal := true } (zeroBody x)
    x.stop i w = some ((x.resulted r).finish, [r]) := by
  have hemit := Slot.emitNoSignal_eq (i := i) (x := x.withStopped) h
  intro r
  rw [Slot.stop, hs]
  exact congrArg (fun o => some (produce o Slot.finish)) hemit

theorem Slot.stop_of_batch (hs : x.state = .seekA ∨ x.state = .seekB) (h : x.run.gateIndex < 2 ^ 32 - 1) :
    let r := x.withStopped.batchRecord i w
    x.stop i w = some ((x.resulted r).finish, [r]) := by
  have hemit := Slot.emitBatch_eq (i := i) (x := x.withStopped) h w
  intro r
  rcases hs with hs | hs <;> rw [Slot.stop, hs] <;>
    exact congrArg (fun o => some (produce o Slot.finish)) hemit

theorem Slot.stop_of_total (hs : x.state = .totalCounting ∨ x.state = .held)
    (h : x.run.gateIndex < 2 ^ 32 - 1) :
    let r := x.withStopped.totalRecord i w
    x.stop i w = some ((x.resulted r).finish, [r]) := by
  have hemit := Slot.emitTotal_eq (i := i) (x := x.withStopped) h w
  intro r
  rcases hs with hs | hs <;> rw [Slot.stop, hs] <;>
    exact congrArg (fun o => some (produce o Slot.finish)) hemit

theorem Slot.stop_of_closing (hs : x.state = .closing) (hf : x.run.flags.stopped = false) :
    x.stop i w = some ({ x.withStopped with
      run := { x.withStopped.run with pendingGate := none, lastGate := true } }, []) := by
  rw [Slot.stop]
  conv_lhs => rw [hs]
  exact if_neg (by rw [hf]; decide)

/-- A second STOP in CLOSING acts as the close timeout, and the run ends (R111). -/
theorem Slot.stop_of_stopped (hs : x.state = .closing) (hf : x.run.flags.stopped = true)
    (h : x.run.gateIndex < 2 ^ 32 - 1) :
    x.stop i w =
      some ({ x with
        state := .idle, seq := x.seq + 1, retained := some (x.lateRecord i)
        run :=
          { Run.empty with
            gateIndex := (x.run.pendingGate.map (·.index)).getD
              (min (2 ^ 32 - 1) (x.run.gateIndex + 1 + x.run.passed)) } }, [x.lateRecord i]) := by
  rw [Slot.stop]
  conv_lhs => rw [hs]
  refine (if_pos hf).trans ?_
  rw [Slot.expireClose_eq h]
  dsimp only
  rw [Slot.afterExpiry_finish]
  rfl

/-- The close that STOP sets for a RATE gate in COUNTING (R111). -/
def Slot.stopClose (w : Stamp) (x : Slot) : Stamp := (x.run.tClose.map (earlierOf (roundUp w))).getD (roundUp w)

theorem Slot.stop_of_counting (hs : x.state = .rateCounting) :
    x.stop i w = some ({ x.withStopped with
      run := { x.withStopped.run with tClose := some (x.stopClose w), lastGate := true } }, []) := by
  rw [Slot.stop, Slot.stopClose]
  conv_lhs => rw [hs]
  cases x.run.tClose <;> rfl

end Stop

/-! ## STOP as a row -/

section Row
variable {c : Cell} {i : Fin 8} {s : State} (h : TakesQuietly s c)
include h

theorem exec_stop (n : Nat) :
    exec (.stop c n) s =
      .next (replied c (stopSlot n (consumed s)).code (stopSlot n (consumed s)).fields
        (stopSlot n (consumed s)).state) := by
  change execStop c n s = _
  rw [execStop, takeCommand_quiet h]

theorem exec_stop_refused (hs : (s.slots.get i).stop i s.queue.mark = none) :
    exec (.stop c i) s = .next (replied c .state [] (consumed s)) := by
  have hs' : ((consumed s).slots.get i).stop i (consumed s).queue.mark = none := hs
  rw [exec_stop h, stopSlot, inRange_val]
  dsimp only
  rw [hs']
  rfl

/-- STOP takes the slot event, and a closing boundary that it sets at W with it (R92, R111). -/
theorem exec_stop_event {out : SlotOut} (hs : (s.slots.get i).stop i s.queue.mark = some out) :
    exec (.stop c i) s =
      .next (replied c .done [] (slotEvent i
        (if out.1.state = .rateCounting ∧ out.1.run.tClose = some s.queue.mark then
          out.1.closeGate i s.queue.mark
        else out) (consumed s))) := by
  have hs' : ((consumed s).slots.get i).stop i (consumed s).queue.mark = some out := hs
  rw [exec_stop h, stopSlot, inRange_val]
  dsimp only
  rw [hs']
  rfl

theorem exec_stop_quiet {out : SlotOut} (hs : (s.slots.get i).stop i s.queue.mark = some out)
    (hout : ¬ (out.1.state = .rateCounting ∧ out.1.run.tClose = some s.queue.mark)) :
    exec (.stop c i) s = .next (replied c .done [] (slotEvent i out (consumed s))) := by
  rw [exec_stop_event h hs, if_neg hout]

end Row

/-- Settles O43: STOP by the slot's state. -/
theorem stopActsByTheSlotsState : Obligations.StopActsByTheSlotsState := by
  unfold Obligations.StopActsByTheSlotsState
  intro c i s h x w after stopped ended close record
  have hidle : ∀ {y : Slot} {rs : List Record}, y.state = .idle → x.stop i w = some (y, rs) →
      exec (.stop c i) s = after (y, rs) := fun hy hs =>
    exec_stop_quiet h hs fun hc => by cases hy.symm.trans hc.1
  have hended : ∀ {r : Record}, x.state ≠ .closing → x.stop i w = some ((x.resulted r).finish, [r]) →
      exec (.stop c i) s = after (ended r) := fun {r} hne hs => by
    have hout : ended r = ((x.resulted r).finish, [r]) := by
      dsimp only [ended]
      split
      · next hc _ => exact absurd hc hne
      · rfl
    rw [hidle rfl hs, hout]
  have hlate : x.state = .closing → x.run.flags.stopped = true → x.run.gateIndex < 2 ^ 32 - 1 →
      exec (.stop c i) s = after (ended (x.lateRecord i)) := fun hs hf hi => by
    have hout : ended (x.lateRecord i) = ({ x with
        state := .idle, seq := x.seq + 1, retained := some (x.lateRecord i)
        run :=
          { Run.empty with
            gateIndex := (x.run.pendingGate.map (·.index)).getD
              (min (2 ^ 32 - 1) (x.run.gateIndex + 1 + x.run.passed)) } }, [x.lateRecord i]) := by
      dsimp only [ended]
      rw [hs]
      cases x.run.pendingGate <;> rfl
    rw [hidle rfl (Slot.stop_of_stopped hs hf hi), hout]
  have hzero : x.config.kind = .rate → zeroBody x = .rate x.run.prescale 0 0 0 0 0 := fun hk => by
    rw [zeroBody, hk]
  refine ⟨fun n hn => ?_, fun hs => exec_stop_refused h (Slot.stop_of_idle hs),
    fun hs => hidle rfl (Slot.stop_of_armed hs), fun hi => ⟨fun hs hk => ?_, fun hs => ?_, fun hs => ?_,
      fun hs hf hn hk => ?_, fun hs hf hn => ?_⟩, fun hs hf => ?_, fun hs => ?_⟩
  · rw [exec_stop h, stopSlot, inRange_of_le hn]
    rfl
  · rw [← hzero hk]
    exact hended (by rw [hs]; nofun) (Slot.stop_of_opening hs hi)
  · exact hended (by rcases hs with hs | hs <;> rw [hs] <;> nofun) (Slot.stop_of_batch hs hi)
  · exact hended (by rcases hs with hs | hs <;> rw [hs] <;> nofun) (Slot.stop_of_total hs hi)
  · rw [hlate hs hf hi, Slot.lateRecord, if_neg (by omega), hzero hk]
    rfl
  · rw [hlate hs hf hi, Slot.lateRecord, if_pos hn]
  · exact exec_stop_quiet h (Slot.stop_of_closing hs hf) fun hc => by cases hs.symm.trans hc.1
  · have hclose : x.stopClose w = close := by
      dsimp only [close]
      rw [Slot.stopClose]
      cases x.run.tClose <;> rfl
    have hstop := Slot.stop_of_counting (i := i) (w := w) hs
    rw [hclose] at hstop
    refine ⟨fun hne => exec_stop_quiet h hstop fun hc => hne (Option.some.inj hc.2), fun heq => ?_⟩
    rw [exec_stop_event h hstop, if_pos ⟨hs, congrArg some heq⟩, Slot.closeGate_of_counting (by exact hs),
      Slot.formPending_of_none fun hc => by cases hc.2.1]
    rfl

end Sys2Proof.Machine
end

section
/-!
SUPPORT. The boundaries that a slot has set, and ARM and ARM-AT (R92, R94, R95).
-/

namespace Sys2Proof.Machine

/-! ## Stamps ahead of W -/

/-- A stamp some coarse periods ahead is later (R2, R3). -/
theorem later_addPeriods {n : Nat} (h : 1 ≤ n) (h' : n ≤ 2 ^ 40) (w : Stamp) :
    later (w + BitVec.ofNat 59 (n * 4096)) w = true := by
  have hw := w.isLt
  rw [later_iff, aheadOf, BitVec.toNat_sub, BitVec.toNat_add, BitVec.toNat_ofNat]
  omega

theorem roundUp_of_whole {w : Stamp} (h : w.toNat % 4096 = 0) : roundUp w = w := by
  refine if_pos (BitVec.eq_of_toNat_eq ?_)
  rw [fraction_toNat]
  exact h

/-- A stamp rounded up to a whole period is later, where it is not whole (R5). -/
theorem later_roundUp {w : Stamp} (h : w.toNat % 4096 ≠ 0) : later (roundUp w) w = true := by
  have hfraction : fraction w ≠ 0 := fun hf => h (by
    have := congrArg BitVec.toNat hf
    rwa [fraction_toNat] at this)
  have hw := w.isLt
  have hstamp : (stampOf (coarsePart w + 1)).toNat = (w.toNat / 4096 + 1) % 2 ^ 47 * 4096 := by
    rw [stampOf, BitVec.toNat_append, Nat.shiftLeft_eq, BitVec.toNat_add, coarsePart_toNat]
    simp
  rw [roundUp, if_neg hfraction, later_iff, aheadOf, BitVec.toNat_sub, hstamp]
  omega

theorem roundUp_ne {w : Stamp} (h : w.toNat % 4096 ≠ 0) : roundUp w ≠ w := fun heq => by
  have hlater := later_roundUp h
  rw [heq, later_iff, aheadOf_self] at hlater
  exact absurd hlater.1 (Nat.lt_irrefl 0)

/-! ## The boundaries that a slot has set -/

theorem mem_boundaryAt {k : Boundary} {o : Option Stamp} {b : Boundary × Stamp} :
    b ∈ boundaryAt k o ↔ b.1 = k ∧ o = some b.2 := by
  obtain ⟨kind, time⟩ := b
  cases o <;> simp [boundaryAt, and_comm, eq_comm]

section Quiet
variable {y : Slot} {w : Stamp}

theorem Slot.closeTime_of_not_closing {t : Stamp} (hs : y.state ≠ .closing) (h : y.closeTime = some t) :
    y.run.tClose = some t := by
  rw [Slot.closeTime] at h
  split at h
  · next hc _ => exact absurd hc hs
  · cases h
  · cases h
  · cases h
  · split at h
    · cases h
    · exact h
  · exact h

/-- A slot whose times lie ahead of W has no boundary due (R92). -/
theorem Slot.due_of_times_later (hs : y.state ≠ .closing)
    (harm : ∀ t, y.run.armAt = some t → later t w = true)
    (hclose : ∀ t, y.run.tClose = some t → later t w = true)
    (hstep : ∀ t, y.run.stepEnd = some t → later t w = true) : y.due w = [] := by
  refine due_of_all_later (List.all_eq_true.mpr fun b hb => ?_)
  rw [Slot.boundaries] at hb
  split at hb
  · cases hb
  · rcases List.mem_append.mp hb with hb | hb
    · exact harm _ (mem_boundaryAt.mp hb).2
    · exact hstep _ (mem_boundaryAt.mp hb).2
  · next hc => exact absurd hc hs
  · rcases List.mem_append.mp hb with hb | hb
    · exact hclose _ (Slot.closeTime_of_not_closing hs (mem_boundaryAt.mp hb).2)
    · exact hstep _ (mem_boundaryAt.mp hb).2

theorem Slot.openGate_due {close : Option Stamp} (ha : y.run.armAt = none)
    (hc : ∀ t, close = some t → later t w = true) (hstep : ∀ t, y.run.stepEnd = some t → later t w = true) :
    (y.openGate w close).due w = [] := by
  have hnone : ∀ t, y.run.armAt = some t → later t w = true := fun t h => by cases ha.symm.trans h
  cases hk : y.config.kind with
  | rate =>
    rw [Slot.openGate_of_rate hk]
    exact Slot.due_of_times_later (by nofun) hnone hc hstep
  | interval =>
    rw [Slot.openGate_of_interval hk]
    exact Slot.due_of_times_later (by nofun) hnone hc hstep
  | total =>
    rw [Slot.openGate_of_total hk]
    exact Slot.due_of_times_later (by nofun) hnone hc hstep

end Quiet

/-! ## ARM and ARM-AT as rows -/

theorem Slot.canArm_iff (x : Slot) :
    x.canArm = true ↔ ¬ (x.state ≠ .idle ∨ (x.config.kind = .interval ∧ x.config.endpointB = none)) := by
  rw [Slot.canArm, Bool.and_eq_true, beq_iff_eq, Bool.not_eq_true', ← Bool.not_eq_true, Bool.and_eq_true,
    beq_iff_eq, Option.isNone_iff_eq_none, not_or, not_not]

/-- The run that ARM and ARM-AT begin (R94, R98, R115). -/
def freshRun (s : State) (i : Fin 8) : Run :=
  { Run.empty with
    prescale := (s.channels.get (s.slots.get i).config.endpointA.channel).set.prescale
    planStep := (startRun s i).run.planStep, extPhase := (startRun s i).run.extPhase }

theorem startRun_eq (s : State) (i : Fin 8) :
    startRun s i = { s.slots.get i with state := .armed, run := freshRun s i } := rfl

theorem freshRun_planStep {s : State} {i : Fin 8} {f : Fin 64} (hg : (s.slots.get i).config.gate = .plan f) :
    (freshRun s i).planStep = some f := by
  unfold freshRun startRun Slot.beginRun
  simp only [hg]

section Rows
variable {c : Cell} {s : State} (h : TakesQuietly s c)
include h

theorem exec_arm (n : Nat) :
    exec (.arm c n) s =
      .next (replied c (armSlot n (consumed s)).code (armSlot n (consumed s)).fields
        (armSlot n (consumed s)).state) := by
  change execArm c n s = _
  rw [execArm, takeCommand_quiet h]

theorem exec_armAt (n time : Nat) :
    exec (.armAt c n time) s =
      .next (replied c (armSlotAt n time (consumed s)).code (armSlotAt n time (consumed s)).fields
        (armSlotAt n time (consumed s)).state) := by
  change execArmAt c n time s = _
  rw [execArmAt, takeCommand_quiet h]

end Rows

section Arm
variable {s : State} {i : Fin 8}

theorem armSlot_of_unfit (h : (s.slots.get i).canArm = false ∨ (s.slots.get i).config.armSource = .atTime) :
    armSlot i s = .still s .state := by
  rw [armSlot, inRange_val]
  refine if_pos ?_
  rcases h with h | h
  · rw [h]
    rfl
  · rw [h, beq_self_eq_true, Bool.or_true]

section Fit
variable (hfit : (s.slots.get i).canArm = true)
include hfit

/-- ARM under ARM-EDGE (R94, R96): the slot waits for its arm edge. -/
theorem armSlot_of_edge {r : Endpoint} (hsource : (s.slots.get i).config.armSource = .armEdge r)
    {y : Slot} (hy : startRun s i = y) (hnone : y.run.armAt = none) :
    armSlot i s =
      ⟨slotEvent i ({ y with run := { y.run with armWait := true } }, []) s, .done, []⟩ := by
  subst hy
  rw [armSlot, inRange_val]
  dsimp only
  rw [hfit, hsource]
  change (⟨slotEvent i (if (startRun s i).run.armAt = some s.queue.mark then _ else _) s, .done, []⟩ : Answer) = _
  rw [if_neg (by rw [hnone]; nofun)]
  rfl

section Immediate
variable (hsource : (s.slots.get i).config.armSource = .immediate)
include hsource

theorem armSlot_of_immediate :
    let y : Slot := { s.slots.get i with
      state := .armed, run := { freshRun s i with armAt := some (roundUp s.queue.mark) } }
    armSlot i s =
      ⟨slotEvent i (if roundUp s.queue.mark = s.queue.mark then (y.reachArmTime s.plan s.queue.mark, [])
        else (y, [])) s, .done, []⟩ := by
  intro y
  rw [armSlot, inRange_val]
  dsimp only
  rw [hfit, hsource]
  exact congrArg (fun out => (⟨slotEvent i out s, .done, []⟩ : Answer))
    (if_congr (Option.some_inj) rfl rfl)

/-- ARM between two coarse counts: the arm point is W rounded up (R94). -/
theorem armSlot_of_fraction (hw : s.queue.mark.toNat % 4096 ≠ 0) :
    armSlot i s =
      ⟨slotEvent i ({ s.slots.get i with
        state := .armed, run := { freshRun s i with armAt := some (roundUp s.queue.mark) } }, []) s,
        .done, []⟩ := by
  rw [armSlot_of_immediate hfit hsource, if_neg (roundUp_ne hw)]

/-- ARM at a whole W: the arm point is W, reached at once (R92, R94). -/
theorem armSlot_of_whole (hw : s.queue.mark.toNat % 4096 = 0) :
    armSlot i s =
      ⟨slotEvent i (Slot.takeArmPoint s.plan s.queue.mark { s.slots.get i with
        state := .armed, run := { freshRun s i with armAt := some s.queue.mark } }, []) s,
        .done, []⟩ := by
  rw [armSlot_of_immediate hfit hsource, roundUp_of_whole hw, if_pos rfl, Slot.reachArmTime]
  dsimp only
  rw [hsource]

end Immediate
end Fit

theorem armSlotAt_of_beyond {time : Nat} (ht : 2 ^ 47 ≤ time) : armSlotAt i time s = .still s .range := by
  rw [armSlotAt, inRange_val]
  exact if_pos ht

theorem armSlotAt_of_unfit {time : Nat} (ht : time < 2 ^ 47) (h : (s.slots.get i).canArm = false) :
    armSlotAt i time s = .still s .state := by
  rw [armSlotAt, inRange_val]
  refine (if_neg (Nat.not_le.mpr ht)).trans (if_pos ?_)
  rw [h]
  rfl

theorem armSlotAt_of_late {time : Nat} (ht : time < 2 ^ 47) (h : (s.slots.get i).canArm = true)
    (hl : later (BitVec.ofNat 59 (time * 4096)) s.queue.mark = false) :
    armSlotAt i time s = .still s .tooLate := by
  rw [armSlotAt, inRange_val]
  refine (if_neg (Nat.not_le.mpr ht)).trans ((if_neg ?_).trans (if_pos ?_))
  · rw [h]
    decide
  · rw [notLater]
    exact (Bool.not_eq_true' _).mpr hl

theorem armSlotAt_of_ahead {time : Nat} (ht : time < 2 ^ 47) (h : (s.slots.get i).canArm = true)
    (hl : later (BitVec.ofNat 59 (time * 4096)) s.queue.mark = true) :
    armSlotAt i time s =
      ⟨slotEvent i ((startRun s i).withRun fun r =>
        { r with armAt := some (BitVec.ofNat 59 (time * 4096)) }, []) s, .done, []⟩ := by
  rw [armSlotAt, inRange_val]
  refine (if_neg (Nat.not_le.mpr ht)).trans ((if_neg ?_).trans (if_neg ?_))
  · rw [h]
    decide
  · rw [notLater, show stampOfPeriods time = BitVec.ofNat 59 (time * 4096) from rfl, hl]
    decide

end Arm

/-- A fresh slot at its arm point: the gate that opens (R94, R97). -/
theorem openGate_of_fresh {s : State} {i : Fin 8} {step : Option PlanStep} {stop close : Option Stamp}
    {w : Stamp} :
    let x := s.slots.get i
    let run := { freshRun s i with watching := true, stepRecord := step, stepEnd := stop }
    ({ x with state := .armed, run := run } : Slot).openGate w close =
      { x with
        state := match x.config.kind with
          | .rate => .opening
          | .interval => .seekA
          | .total => .totalCounting
        run := { run with tOpen := some w, tClose := close } } := by
  intro x run
  cases hk : x.config.kind with
  | rate => exact Slot.openGate_of_rate (x := ({ x with state := .armed, run := run } : Slot)) hk w close
  | interval => exact Slot.openGate_of_interval (x := ({ x with state := .armed, run := run } : Slot)) hk w close
  | total => exact Slot.openGate_of_total (x := ({ x with state := .armed, run := run } : Slot)) hk w close

/-- Settles O42: a fresh run has set no boundary but its arm point, and the gate or step that opens at a
whole W ends later than W. -/
theorem armStartsARun : Obligations.ArmStartsARun := by
  intro c i s h hconfig hplan x w unfit armed fresh opened
  have hunfit : unfit ↔ x.canArm = false := by
    rw [← Bool.not_eq_true, Slot.canArm_iff, not_not]
  have hfit (hu : ¬ unfit) : x.canArm = true := Bool.not_eq_false _ |>.mp fun hc => hu (hunfit.mpr hc)
  have hfresh : fresh = freshRun (consumed s) i := by
    cases hg : x.config.gate with
    | external ch l =>
      cases l <;> simp only [fresh, freshRun, startRun, Slot.beginRun, hg, x, consumed] <;> rfl
    | timed | openEnded | plan => simp only [fresh, freshRun, startRun, Slot.beginRun, hg, x, consumed]
  clear_value fresh
  subst hfresh
  have hquiet (y : Slot) (hy : y.due w = []) :
      (.next (replied c .done [] (slotEvent i (y, []) (consumed s))) : Host.Outcome State Fault Refusal) =
        armed y :=
    congrArg (fun z => Host.Outcome.next (replied c .done [] z)) (slotEvent_quiet (s := consumed s) hy)
  refine ⟨fun n hn => ?_, fun hu => ?_, fun hu => ⟨fun r hr => ?_, fun himm => ⟨fun hw => ?_, fun hw => ?_⟩⟩,
    fun time => ⟨fun ht => ?_, fun n hn => ?_, fun ht => ⟨fun hu => ?_, fun hu => ⟨fun hl => ?_, fun hl => ?_⟩⟩⟩⟩
  · rw [exec_arm h, armSlot, inRange_of_le hn]
    rfl
  · rw [exec_arm h, armSlot_of_unfit (s := consumed s) (hu.imp_left hunfit.mp)]
    rfl
  · rw [exec_arm h, armSlot_of_edge (s := consumed s) (hfit hu) hr (startRun_eq _ i) rfl]
    exact hquiet _ (Slot.due_of_times_later (by nofun) (by nofun) (by nofun) (by nofun))
  · rw [exec_arm h, armSlot_of_fraction (s := consumed s) (hfit hu) himm hw]
    refine hquiet _ (Slot.due_of_times_later (by nofun) ?_ (by nofun) (by nofun))
    rintro t ⟨⟩
    exact later_roundUp hw
  · intro live
    let y : Slot := { x with state := .armed, run := { freshRun (consumed s) i with armAt := some w } }
    have hrow {z : Slot} (hz : y.takeArmPoint s.plan w = z) (hdue : z.due w = []) :
        exec (.arm c i) s = armed z := by
      rw [exec_arm h, armSlot_of_whole (s := consumed s) (hfit hu) himm hw]
      exact hz ▸ hquiet _ (hz ▸ hdue)
    have hgate {step : Option PlanStep} {stop close : Option Stamp}
        (hz : y.takeArmPoint s.plan w =
          ({ x with state := .armed, run := { live with stepRecord := step, stepEnd := stop } } : Slot).openGate
            w close)
        (hc : ∀ t, close = some t → later t w = true) (hs : ∀ t, stop = some t → later t w = true) :
        exec (.arm c i) s = armed (opened { live with stepRecord := step, stepEnd := stop } close) := by
      have hopen := openGate_of_fresh (s := consumed s) (i := i) (step := step) (stop := stop)
        (close := close) (w := w)
      refine hrow (hz.trans hopen) ?_
      exact (congrArg (Slot.due w) hopen).symm.trans (Slot.openGate_due rfl hc hs)
    refine ⟨fun hg => ?_, fun hg => ?_, fun ch l hg => ?_, fun f hg => ?_⟩
    · refine hgate (step := none) (stop := none) (Slot.takeArmPoint_timed (x := y) hg w) ?_ (by nofun)
      rintro t ⟨⟩
      exact later_addPeriods hconfig.1 hconfig.2.1 w
    · exact hgate (step := none) (stop := none) (Slot.takeArmPoint_open (x := y) hg w) (by nofun) (by nofun)
    · exact hrow (Slot.takeArmPoint_external (x := y) hg w)
        (Slot.due_of_times_later (by nofun) (by nofun) (by nofun) (by nofun))
    · have hfirst := freshRun_planStep (s := consumed s) hg
      have hlater : ∀ t, some (w + BitVec.ofNat 59 ((s.plan.get f).length.toNat * 4096)) = some t →
          later t w = true := by
        rintro t ⟨⟩
        have hpos : (s.plan.get f).length.toNat ≠ 0 := fun hz => hplan.1 f (BitVec.eq_of_toNat_eq hz)
        have hlt := (s.plan.get f).length.isLt
        exact later_addPeriods (by omega) (by omega) w
      intro stop going
      have hstep : y.live.inStep s.plan f w = { x with state := .armed, run := going } := by
        rw [Slot.inStep, ← hfirst]
        rfl
      have hcase {z : Slot} (hz : y.live.startStep s.plan f w = z) : y.takeArmPoint s.plan w = z :=
        (Slot.takeArmPoint_plan (x := y) hg w).trans hz
      cases hk : (s.plan.get f).kind with
      | wait =>
        rw [if_pos rfl]
        refine hrow (hcase ((Slot.startStep_of_wait (x := y.live) (by nofun) hk w).trans ?_))
          (Slot.due_of_times_later (by nofun) (by nofun) (by nofun) hlater)
        rw [hstep, Slot.awaitGate_of_other]
        · rfl
        · intro g l hg'
          cases hg.symm.trans hg'
      | measure =>
        rw [if_neg (by nofun)]
        refine hgate (hcase ((Slot.startStep_of_measure (x := y.live) (by nofun) hk rfl w).trans ?_)) hlater hlater
        rw [hstep]
  · rw [exec_armAt h, armSlotAt_of_beyond ht]
    rfl
  · rw [exec_armAt h, armSlotAt, inRange_of_le hn]
    rfl
  · rw [exec_armAt h, armSlotAt_of_unfit (s := consumed s) ht (hunfit.mp hu)]
    rfl
  · rw [exec_armAt h, armSlotAt_of_late (s := consumed s) ht (hfit hu) hl]
    rfl
  · rw [exec_armAt h, armSlotAt_of_ahead (s := consumed s) ht (hfit hu) hl, startRun_eq]
    refine hquiet _ (Slot.due_of_times_later (by nofun) ?_ (by nofun) (by nofun))
    rintro t ⟨⟩
    exact hl

end Sys2Proof.Machine
end

section
/-!
SUPPORT. The boundaries that W reaches, taken one by one in time order (R92).
-/

namespace Sys2Proof.Machine

/-! ## The earliest of some boundaries -/

theorem earlierOf_eq_or (x y : Stamp) : earlierOf x y = x ∨ earlierOf x y = y := by
  rw [earlierOf]
  split
  · exact Or.inr rfl
  · exact Or.inl rfl

/-- Where `t` is the first of some times, it is the earlier of itself and another. -/
theorem earlierOf_first {t x : Stamp} (hx : x = t ∨ later x t = true) :
    earlierOf t x = t ∧ earlierOf x t = t := by
  rcases hx with rfl | hx
  · exact ⟨ite_self _, ite_self _⟩
  · have hpos : 0 < stampDiff x t := of_decide_eq_true hx
    refine ⟨if_neg ?_, if_pos ?_⟩
    · rw [earlier, decide_eq_true_eq]
      exact not_lt.mpr hpos.le
    · have hahead := later_iff.mp hx
      rw [earlier_iff_aheadOf (w := t) (by rw [aheadOf_self]; decide) hahead.2, aheadOf_self]
      exact hahead.1

theorem foldl_earlierOf {t : Stamp} (l : List (Boundary × Stamp))
    (h : ∀ c ∈ l, c.2 = t ∨ later c.2 t = true) (x : Stamp) (hx : x = t ∨ later x t = true)
    (hmem : x = t ∨ ∃ c ∈ l, c.2 = t) : l.foldl (fun t c => earlierOf t c.2) x = t := by
  induction l generalizing x with
  | nil => exact hmem.resolve_right (by simp)
  | cons c l ih =>
    have hc := h c List.mem_cons_self
    have hl : ∀ c ∈ l, c.2 = t ∨ later c.2 t = true := fun d hd => h d (List.mem_cons_of_mem _ hd)
    rw [List.foldl_cons]
    by_cases hct : c.2 = t
    · rw [hct, (earlierOf_first hx).2]
      exact ih hl t (Or.inl rfl) (Or.inl rfl)
    by_cases hxt : x = t
    · rw [hxt, (earlierOf_first hc).1]
      exact ih hl t (Or.inl rfl) (Or.inl rfl)
    · have hrest : ∃ d ∈ l, d.2 = t := by
        obtain ⟨d, hd, hdt⟩ := hmem.resolve_left hxt
        exact ⟨d, (List.mem_cons.mp hd).resolve_left fun he => hct (he ▸ hdt), hdt⟩
      refine ih hl _ ?_ (Or.inr hrest)
      rcases earlierOf_eq_or x c.2 with he | he
      · rw [he]
        exact hx
      · rw [he]
        exact hc

/-- Of boundaries of which those at `t` are the first, the earliest are those at `t` (R92). -/
theorem earliestOf_of_first {t : Stamp} {l : List (Boundary × Stamp)}
    (h : ∀ c ∈ l, c.2 = t ∨ later c.2 t = true) (hmem : ∃ c ∈ l, c.2 = t) :
    earliestOf l = l.filter fun c => c.2 == t := by
  cases l with
  | nil => rfl
  | cons b l =>
    have hfold := foldl_earlierOf l (fun c hc => h c (List.mem_cons_of_mem _ hc)) b.2
      (h b List.mem_cons_self) (by simpa using hmem)
    rw [earliestOf, hfold]

/-! ## The due boundary -/

theorem boundaryAt_kinds (k : Boundary) (o : Option Stamp) :
    ((boundaryAt k o).map Prod.fst).Sublist [k] := by
  cases o <;> simp [boundaryAt]

/-- A slot has at most one boundary of each kind. -/
theorem Slot.boundaries_nodup (x : Slot) : x.boundaries.Nodup := by
  refine List.Nodup.of_map Prod.fst ?_
  rw [Slot.boundaries]
  split
  · exact List.nodup_nil
  · have hkinds : ([.armTime, .stepEnd] : List Boundary).Nodup := by decide
    refine hkinds.sublist ?_
    rw [List.map_append]
    exact (boundaryAt_kinds _ _).append (boundaryAt_kinds _ _)
  · have hkinds : ([.gateClose, .closeTimeout, .stepEnd] : List Boundary).Nodup := by decide
    refine hkinds.sublist ?_
    rw [List.map_append, List.map_append]
    exact ((boundaryAt_kinds _ _).append (boundaryAt_kinds _ _)).append (boundaryAt_kinds _ _)
  · have hkinds : ([.gateClose, .stepEnd] : List Boundary).Nodup := by decide
    refine hkinds.sublist ?_
    rw [List.map_append]
    exact (boundaryAt_kinds _ _).append (boundaryAt_kinds _ _)

/-- A boundary that W has reached, ahead of which no other lies, is the one due (R92). -/
theorem Slot.due_of_first {x : Slot} {w : Stamp} {b : Boundary × Stamp} (hb : b ∈ x.boundaries)
    (hw : later b.2 w = false)
    (h : ∀ d ∈ x.boundaries, d ≠ b → later d.2 b.2 = true ∨ later d.2 w = true) : x.due w = [b] := by
  have hmem : b ∈ x.reached w := List.mem_filter.mpr ⟨hb, by rw [notLater, hw]; rfl⟩
  have hothers : ∀ d ∈ x.reached w, d = b ∨ later d.2 b.2 = true := fun d hd => by
    obtain ⟨hd, hr⟩ := List.mem_filter.mp hd
    rw [notLater, Bool.not_eq_true'] at hr
    by_cases he : d = b
    · exact Or.inl he
    · exact Or.inr ((h d hd he).resolve_right (by rw [hr]; decide))
  have hfirst : ∀ d ∈ x.reached w, d.2 = b.2 ∨ later d.2 b.2 = true := fun d hd =>
    (hothers d hd).imp_left (congrArg Prod.snd)
  have hsame : (x.reached w).filter (fun d => d.2 == b.2) = (x.reached w).filter (· == b) := by
    refine List.filter_congr fun d hd => ?_
    rcases hothers d hd with rfl | hl
    · rw [beq_self_eq_true, beq_self_eq_true]
    · have hne : d.2 ≠ b.2 := fun he => by
        rw [he, later_iff, aheadOf_self] at hl
        exact absurd hl.1 (Nat.lt_irrefl 0)
      rw [beq_eq_false_iff_ne.mpr hne, beq_eq_false_iff_ne.mpr fun he => hne (congrArg Prod.snd he)]
  have hcount : (x.reached w).count b = 1 :=
    List.count_eq_one_of_mem (x.boundaries_nodup.filter _) hmem
  rw [Slot.due, earliestOf_of_first hfirst ⟨b, hmem, rfl⟩, hsame, List.filter_beq, hcount]
  rfl

/-! ## Boundaries taken one after another -/

section Loop
variable {i : Fin 8} {s : State}

theorem settleSlotLoop_of_none_due (h : (s.slots.get i).due s.queue.mark = []) (fuel : Nat) :
    settleSlotLoop fuel i s = s := by
  cases fuel with
  | zero => rfl
  | succ fuel =>
    rw [settleSlotLoop, h]
    rfl

theorem settleSlotLoop_of_due {b : Boundary × Stamp} (h : (s.slots.get i).due s.queue.mark = [b])
    (fuel : Nat) : settleSlotLoop (fuel + 1) i s = settleSlotLoop fuel i (takeSlotBoundary i b s) := by
  rw [settleSlotLoop, h, choose_single]

theorem settleFuel_of_due {x : Slot} {w : Stamp} {b : Boundary × Stamp} (h : x.due w = [b]) :
    settleFuel x w = 8 * ((w - b.2).toNat / 4096 + 2) := by
  rw [settleFuel, h]
  rfl

/-- The states between are those of the boundaries taken in time order (R92). -/
theorem settleSlotLoop_follows {n : Nat} {state : Nat → State} {b : Nat → Boundary × Stamp}
    (hstep : ∀ j, j < n → ((state j).slots.get i).due (state j).queue.mark = [b j] ∧
      state (j + 1) = takeSlotBoundary i (b j) (state j))
    (hend : ((state n).slots.get i).due (state n).queue.mark = []) (m j fuel : Nat) (hm : j + m = n)
    (hfuel : m ≤ fuel) : settleSlotLoop fuel i (state j) = state n := by
  induction m generalizing j fuel with
  | zero =>
    obtain rfl : j = n := hm
    exact settleSlotLoop_of_none_due hend fuel
  | succ m ih =>
    obtain ⟨fuel, rfl⟩ := Nat.exists_eq_add_of_le' (Nat.le_of_add_left_le hfuel)
    obtain ⟨hdue, hnext⟩ := hstep j (by omega)
    rw [settleSlotLoop_of_due hdue, ← hnext]
    exact ih (j + 1) fuel (by omega) (by omega)

end Loop

/-- The row of a boundary's kind (R92). -/
theorem reachBoundary_of_due {i : Fin 8} {s : State} {b : Boundary × Stamp} (hs : s.held = false)
    (h : (s.slots.get i).due s.queue.mark = [b]) : reachBoundary b.1 i s = takeSlotBoundary i b s := by
  have hfilter : ([b].filter fun c => c.1 == b.1) = [b] := by simp
  rw [reachBoundary, h, hfilter]
  exact if_neg (by rw [hs]; decide)

theorem reachBoundary_of_none_due {i : Fin 8} {s : State} (k : Boundary)
    (h : (s.slots.get i).due s.queue.mark = []) : reachBoundary k i s = s := by
  rw [reachBoundary, h]
  rfl

/-- Settles O45: the due boundary is the one that the statement names, so each row and each turn of the
settling loop takes it; the loop's fuel covers the boundaries that W leaves room for. -/
theorem boundaryRowsTakeWhatWHasReached : Obligations.BoundaryRowsTakeWhatWHasReached := by
  unfold Obligations.BoundaryRowsTakeWhatWHasReached
  constructor
  · intro s i k b hs x row
    have hrow : exec row s = .next (reachBoundary k i s) := by cases k <;> rfl
    rw [hrow]
    refine ⟨fun hb hw => ?_, fun hlater => ?_⟩
    · have hdue : (s.slots.get i).due s.queue.mark = [(k, b)] := due_of_single hb hw
      refine ⟨congrArg Host.Outcome.next (reachBoundary_of_due hs hdue), fun hlater => ?_⟩
      rw [settleSlot, settleFuel_of_due hdue, Nat.mul_add, settleSlotLoop_of_due hdue]
      refine settleSlotLoop_of_none_due ?_ _
      rw [takeSlotBoundary, applySlot_slots, applySlot_queue, Bank.get_set_self]
      exact due_of_all_later hlater
    · have hdue : (s.slots.get i).due s.queue.mark = [] := due_of_all_later hlater
      exact ⟨congrArg Host.Outcome.next (reachBoundary_of_none_due k hdue), settleSlot_of_none_due hdue⟩
  · intro i n state kind time slot w hstep hend hn
    have hmark : ∀ j, j ≤ n → (state j).queue.mark = w := by
      intro j
      induction j with
      | zero => exact fun _ => rfl
      | succ j ih =>
        intro hj
        rw [(hstep j hj).2.2.2, applySlot_queue]
        exact ih (Nat.le_of_succ_le hj)
    have hdue : ∀ j, j < n → (slot j).due (state j).queue.mark = [(kind j, time j)] := fun j hj => by
      obtain ⟨hmem, hw, hfirst, -⟩ := hstep j hj
      rw [hmark j hj.le]
      exact Slot.due_of_first hmem hw hfirst
    have hlast : (slot n).due (state n).queue.mark = [] := by
      rw [hmark n le_rfl]
      exact due_of_all_later (List.all_eq_true.mpr hend)
    have hfollows := settleSlotLoop_follows (b := fun j => (kind j, time j))
      (fun j hj => ⟨hdue j hj, (hstep j hj).2.2.2⟩) hlast n 0
    rcases Nat.eq_zero_or_pos n with hz | hpos
    · subst hz
      exact settleSlot_of_none_due hlast
    · rw [settleSlot, settleFuel_of_due (hdue 0 hpos)]
      exact hfollows _ (Nat.zero_add n) hn

end Sys2Proof.Machine
end

section
/-!
SUPPORT. What a slot does at its boundaries (R92, R94, R95, R97 to R104, R106 to R108).
-/

namespace Sys2Proof.Machine

/-! ## The arm time (R94, R95) -/

section ArmTime
variable {plan : Bank PlanStep 64} {x : Slot}

theorem Slot.reachArmTime_of_edge {r : Endpoint} (h : x.config.armSource = .armEdge r) (t : Stamp) :
    x.reachArmTime plan t = { x with run := { x.run with armAt := none, armWait := true } } := by
  rw [Slot.reachArmTime, h]
  rfl

theorem Slot.reachArmTime_of_point (h : ∀ r, x.config.armSource ≠ .armEdge r) (t : Stamp) :
    x.reachArmTime plan t = x.takeArmPoint plan t := by
  rw [Slot.reachArmTime]
  split
  · next r hr => exact absurd hr (h r)
  · rfl

end ArmTime

/-! ## The gate close (R101 to R103, R106, R107) -/

section GateClose
variable {i : Fin 8} {plan : Bank PlanStep 64} {t : Stamp} {x : Slot}

theorem Slot.takeBoundary_close (h : x.state ≠ .closing) :
    x.takeBoundary i plan .gateClose t = x.closeGate i t := if_neg h

theorem Slot.takeBoundary_close_closing (h : x.state = .closing) :
    x.takeBoundary i plan .gateClose t = (x.passOver.formPending t, []) := if_pos h

theorem Slot.closeGate_of_armed (hs : x.state = .armed) : x.closeGate i t = (x, []) := by
  rw [Slot.closeGate, hs]

/-- The pending gate that a TIMED run forms, while repeats remain (R102, R103). -/
theorem Slot.formPending_eq (hi : x.run.gateIndex + 1 + x.run.passed < 2 ^ 32 - 1) :
    x.formPending t =
      { x with
        run :=
          { x.run with
            pendingGate :=
              if x.config.gate = .timed ∧ x.run.lastGate = false ∧ (x.config.repeats = 0 ∨
                  x.run.gateIndex + 1 + x.run.passed < x.config.repeats) then
                some ⟨t, some (t + BitVec.ofNat 59 (x.config.length * 4096)),
                  x.run.gateIndex + 1 + x.run.passed, .clear⟩
              else none } } := by
  rw [← Slot.nextIndex_of_lt hi]
  split
  · next h => exact Slot.formPending_of_more h
  · next h => exact Slot.formPending_of_none h

theorem Slot.Falls.state_ne {r : Record} {a : Option PendingA} (h : x.Falls i t r a) :
    x.state ≠ .idle ∧ x.state ≠ .armed ∧ x.state ≠ .closing := by
  rcases h with ⟨hs, -⟩ | ⟨hs | hs, -⟩ | ⟨hs | hs, -⟩ <;> rw [hs] <;> decide

theorem Slot.closed_eq_of_none_passed (hp : x.run.passed = 0) (hi : x.run.gateIndex + 1 < 2 ^ 32 - 1)
    (r : Record) (a : Option PendingA) :
    x.closed r a =
      { x with
        seq := x.seq + 1, retained := some r
        run :=
          { x.run with
            flags := .clear, gateIndex := x.run.gateIndex + 1, pendingA := a } } := by
  have heq : ∀ index passed, index = x.run.gateIndex + 1 → passed = x.run.passed →
      ({ x with
        seq := x.seq + 1, retained := some r
        run :=
          { x.run with
            flags := .clear, gateIndex := index, passed := passed, pendingA := a } } : Slot) =
      { x with
        seq := x.seq + 1, retained := some r
        run := { x.run with flags := .clear, gateIndex := x.run.gateIndex + 1, pendingA := a } } := by
    rintro _ _ rfl rfl
    rfl
  rw [Slot.closed_eq (by omega)]
  exact heq _ _ (by omega) hp.symm

/-- What a batch that ends leaves of its pending A edge is gone where the next gate opens (R105). -/
theorem Slot.openGate_pendingA (close : Option Stamp) :
    ({ x with
      run := { x.run with
        pendingA := if x.config.kind = .interval then none else x.run.pendingA } } : Slot).openGate t close =
      x.openGate t close := by
  cases hk : x.config.kind with
  | rate => rw [if_neg (by decide)]
  | interval =>
    rw [if_pos rfl, Slot.openGate_of_interval hk]
    exact Slot.openGate_of_interval (x := { x with run := { x.run with pendingA := none } }) hk t close
  | total => rw [if_neg (by decide)]

end GateClose

/-! ## The end of a plan step (R99, R103) -/

section StepEnd
variable {i : Fin 8} {plan : Bank PlanStep 64} {t : Stamp} {x : Slot}

theorem Slot.closeStep_of_open (hs : x.state ≠ .closing) : x.closeStep i t = x.closeGate i t := if_neg hs

/-- In CLOSING the end of a step passes over the pending gate (R103). -/
theorem Slot.closeStep_of_closing (hs : x.state = .closing) :
    x.closeStep i t =
      ({ x with
        run :=
          { x.run with
            passed := if x.run.pendingGate = none then x.run.passed else x.run.passed + 1
            pendingGate := none } }, []) := by
  rw [Slot.closeStep, if_pos hs]
  cases hp : x.run.pendingGate with
  | none =>
    rw [if_pos rfl]
    conv_rhs => rw [← hp]
    rfl
  | some p => rfl

theorem Slot.endStep_eq {y : Slot} {rs : List Record} (h : x.closeStep i t = (y, rs)) :
    x.endStep i plan t = (y.followStep plan t, rs) := by
  rw [Slot.endStep, h]

/-- The step that starts in CLOSING, where no gate is pending: a MEASURE step's gate is (R102). -/
theorem Slot.startStep_of_none_pending {m : Fin 64} (hs : x.state = .closing) (hp : x.run.pendingGate = none)
    (hi : x.run.gateIndex + 1 + x.run.passed < 2 ^ 32 - 1) :
    x.startStep plan m t =
      { x with
        run :=
          { (x.inStep plan m t).run with
            pendingGate :=
              if (plan.get m).kind = .measure ∧ x.run.lastGate = false then
                some ⟨t, some (t + BitVec.ofNat 59 ((plan.get m).length.toNat * 4096)),
                  x.run.gateIndex + 1 + x.run.passed, .clear⟩
              else none } } := by
  rw [Slot.startStep_of_closing hs, Slot.nextIndex_of_lt hi]
  split
  · rfl
  · rw [← hp]
    rfl

section Follow
variable {p : PlanStep} {n : Fin 64} (hidle : x.state ≠ .idle) (hstep : x.run.stepRecord = some p)
  (hn : x.run.planStep = some n)
include hidle hstep hn

theorem Slot.followStep_of_follows {m : Fin 64} (h : (p.action = .next ∧ m = n + 1) ∨ p.action = .jump m) :
    x.followStep plan t = x.startStep plan m t := by
  rw [Slot.followStep, if_neg hidle, hstep, hn]
  dsimp only
  rcases h with ⟨ha, rfl⟩ | ha <;> rw [ha]

theorem Slot.followStep_of_last (h : p.action = .last) :
    x.followStep plan t =
      if x.state = .closing then { x with run := { x.run with stepEnd := none } }
      else { x with state := .idle, run := { Run.empty with gateIndex := x.run.gateIndex } } := by
  rw [Slot.followStep, if_neg hidle, hstep, hn]
  dsimp only
  rw [h]
  rfl

end Follow
end StepEnd

/-! ## The close timeout (R104) -/

section Timeout
variable {i : Fin 8} {t : Stamp} {x : Slot}

/-- The slot that goes on in OPENING behind the result of the close timeout. -/
def Slot.reopened (r : Record) (index : Nat) (tOpen : Stamp) (tClose : Option Stamp) (flags : RunFlags)
    (x : Slot) : Slot :=
  { x with
    seq := x.seq + 1, retained := some r, state := .opening
    run :=
      { x.run with
        flags := flags, passed := 0, pendingGate := none, t0 := none, lastA := none, n := 0
        gateIndex := index, tOpen := some tOpen, tClose := tClose } }

theorem Slot.afterExpiry_of_timed (hk : x.config.kind = .rate) (hg : x.config.gate = .timed) (r : Record)
    (p : PendingGate) :
    (x.resulted r).afterExpiry t (some p) =
      x.reopened r p.index t (some (t + BitVec.ofNat 59 (x.config.length * 4096))) .clear := by
  rw [Slot.afterExpiry]
  refine (if_pos hg).trans ?_
  rw [Slot.openTimed, Slot.openGate_of_rate (by exact hk)]
  rfl

theorem Slot.afterExpiry_of_other (hk : x.config.kind = .rate) (hg : x.config.gate ≠ .timed) (r : Record)
    (p : PendingGate) :
    (x.resulted r).afterExpiry t (some p) =
      x.reopened r p.index p.tOpen p.tClose
        { RunFlags.clear with
          gap := p.marks.gap, nominal := p.marks.nominal, unepoched := p.marks.unepoched } := by
  rw [Slot.afterExpiry]
  refine (if_neg hg).trans ?_
  rw [Slot.openGate_of_rate (by exact hk)]
  rfl

theorem Slot.moreGates_of_last (h : x.run.lastGate = true) : x.moreGates = false := by
  rw [Slot.moreGates, h]
  rfl

section NonePending
variable (hi : x.run.gateIndex + 1 + x.run.passed < 2 ^ 32 - 1) {r : Record}
include hi

theorem Slot.resulted_index : (x.resulted r).run.gateIndex = x.run.gateIndex + 1 + x.run.passed :=
  min_eq_right hi.le

theorem Slot.expired_ends (h : (x.resulted r).moreGates = false) :
    (x.resulted r).afterExpiry t none =
      { x with
        seq := x.seq + 1, retained := some r, state := .idle
        run := { Run.empty with gateIndex := x.run.gateIndex + 1 + x.run.passed } } := by
  rw [Slot.afterExpiry, Slot.afterGate_of_none h, Slot.resulted_eq hi]
  rfl

/-- Without a pending gate the next TIMED gate opens, while repeats remain (R104). -/
theorem Slot.expired_timed (hk : x.config.kind = .rate) (hg : x.config.gate = .timed)
    (hl : x.run.lastGate = false) (hp : x.run.pendingGate = none) :
    (x.resulted r).afterExpiry t none =
      if x.config.repeats = 0 ∨ x.run.gateIndex + 1 + x.run.passed < x.config.repeats then
        x.reopened r (x.run.gateIndex + 1 + x.run.passed) t
          (some (t + BitVec.ofNat 59 (x.config.length * 4096))) .clear
      else
        { x with
          seq := x.seq + 1, retained := some r, state := .idle
          run := { Run.empty with gateIndex := x.run.gateIndex + 1 + x.run.passed } } := by
  have hmore := Slot.moreGates_repeats (x := x.resulted r) (.inl hg)
  rw [Slot.resulted_index hi] at hmore
  split
  · next h =>
    rw [Slot.afterExpiry]
    rw [Slot.afterGate_of_timed (hmore.mpr ⟨hl, h⟩) hg, Slot.openTimed, Slot.openGate_of_rate (by exact hk),
      Slot.resulted_eq hi, Slot.reopened, ← hp]
    rfl
  · next h => exact Slot.expired_ends hi (Bool.eq_false_iff.mpr fun hm => h (hmore.mp hm).2)

theorem Slot.expired_external {g : Fin 16} {l : PinLevel} (hg : x.config.gate = .external g l)
    (hl : x.run.lastGate = false) :
    (x.resulted r).afterExpiry t none =
      if x.config.repeats = 0 ∨ x.run.gateIndex + 1 + x.run.passed < x.config.repeats then
        { x with
          seq := x.seq + 1, retained := some r, state := .armed
          run :=
            { x.run with
              flags := .clear, passed := 0, gateIndex := x.run.gateIndex + 1 + x.run.passed, tOpen := none
              tClose := none, pendingGate := none, extPhase := some .waitActive } }
      else
        { x with
          seq := x.seq + 1, retained := some r, state := .idle
          run := { Run.empty with gateIndex := x.run.gateIndex + 1 + x.run.passed } } := by
  have hmore := Slot.moreGates_repeats (x := x.resulted r) (.inr ⟨g, l, hg⟩)
  rw [Slot.resulted_index hi] at hmore
  split
  · next h =>
    rw [Slot.afterExpiry]
    rw [Slot.afterGate_of_await (hmore.mpr ⟨hl, h⟩) (by
      change x.config.gate ≠ .timed
      rw [hg]
      nofun), Slot.awaitGate_of_external (x := x.resulted r) hg, Slot.resulted_eq hi]
  · next h => exact Slot.expired_ends hi (Bool.eq_false_iff.mpr fun hm => h (hmore.mp hm).2)

theorem Slot.expired_plan {f : Fin 64} (hg : x.config.gate = .plan f) (hl : x.run.lastGate = false) :
    (x.resulted r).afterExpiry t none =
      if x.run.stepEnd = none then
        { x with
          seq := x.seq + 1, retained := some r, state := .idle
          run := { Run.empty with gateIndex := x.run.gateIndex + 1 + x.run.passed } }
      else
        { x with
          seq := x.seq + 1, retained := some r, state := .armed
          run :=
            { x.run with
              flags := .clear, passed := 0, gateIndex := x.run.gateIndex + 1 + x.run.passed, tOpen := none
              tClose := none, pendingGate := none } } := by
  have hmore := Slot.moreGates_plan (x := x.resulted r) hg
  split
  · next h => exact Slot.expired_ends hi (Bool.eq_false_iff.mpr fun hm => (hmore.mp hm).2 h)
  · next h =>
    rw [Slot.afterExpiry]
    rw [Slot.afterGate_of_await (hmore.mpr ⟨hl, h⟩) (by
      change x.config.gate ≠ .timed
      rw [hg]
      nofun), Slot.awaitGate_of_other (x := x.resulted r) (fun g l hg' => by cases hg.symm.trans hg'), Slot.resulted_eq hi]

end NonePending
end Timeout

/-- Settles O46: each boundary by the slot's state, kind and gate mode. -/
theorem slotBoundaries : Obligations.SlotBoundaries := by
  unfold Obligations.SlotBoundaries
  intro i plan t x take next stop ended opened begun result falls
  have hopen : ∀ (close : Option Stamp) (y : Slot), y.openGate t close = opened close y := fun close y => by
    cases hk : y.config.kind with
    | rate => simp only [opened, hk, Slot.openGate_of_rate hk]
    | interval => simp only [opened, hk, Slot.openGate_of_interval hk]
    | total => simp only [opened, hk, Slot.openGate_of_total hk]
  have hzero : x.config.kind = .rate → zeroBody x = .rate x.run.prescale 0 0 0 0 0 := fun hk => by
    rw [zeroBody, hk]
  have hfalls : ∀ r, falls r →
      x.Falls i t r (if x.config.kind = .interval then none else x.run.pendingA) := by
    rintro r (⟨hs, hk, rfl⟩ | ⟨hs, hk, rfl⟩ | ⟨hs, hk, rfl⟩)
    · rw [hk, ← hzero hk]
      exact .inl ⟨hs, rfl, rfl⟩
    · rw [hk]
      exact .inr (.inl ⟨hs, rfl, rfl⟩)
    · rw [hk]
      exact .inr (.inr ⟨hs, rfl, rfl⟩)
  refine ⟨fun hs hsource => ?_, fun r hr => ?_, fun hs hi => ?_, fun p hs hp hi hg => ?_,
    fun r hr hg hl hp hi => ?_, fun hs hk hi => ?_, fun f hg p n hstep hn => ?_⟩
  · intro y
    have htake : take .armTime = (x.takeArmPoint plan t, []) :=
      congrArg (·, []) (Slot.reachArmTime_of_point hsource t)
    have hlive : x.live.state ≠ .closing := by
      change x.state ≠ .closing
      rw [hs]
      nofun
    rw [htake]
    refine ⟨fun hg => ?_, fun hg => ?_, fun g l hg => ?_, fun m hg hl => ⟨fun hk => ?_, fun hk => ?_⟩⟩
    · rw [Slot.takeArmPoint_timed hg, hopen]
      rfl
    · rw [Slot.takeArmPoint_open hg, hopen]
      rfl
    · rw [Slot.takeArmPoint_external hg]
      rfl
    · rw [Slot.takeArmPoint_plan hg, Slot.startStep_of_measure hlive hk hl, hopen]
      rfl
    · rw [Slot.takeArmPoint_plan hg, Slot.startStep_of_wait hlive hk,
        Slot.awaitGate_of_other (x := x.live.inStep plan m t) fun g l hg' => by cases hg.symm.trans hg']
      exact congrArg (·, []) (by rw [← hs]; rfl)
  · exact congrArg (·, []) (Slot.reachArmTime_of_edge hr t)
  · have hclose : take .gateClose = _ := Slot.takeBoundary_close (by rw [hs]; nofun)
    rw [hclose, Slot.closeGate_of_counting hs, Slot.formPending_eq (by exact hi)]
  · have hclose : take .gateClose = _ := Slot.takeBoundary_close_closing hs
    have hnext : x.run.gateIndex + 2 + x.run.passed = x.run.gateIndex + 1 + (x.run.passed + 1) := by omega
    rw [hnext] at hi
    rw [hclose, hnext, Slot.formPending_eq (x := x.passOver) hi]
    exact congrArg (fun o : Option PendingGate => (({ x with
      run := { x.run with passed := x.run.passed + 1, pendingGate := o } }, []) : SlotOut))
      (if_congr (and_iff_right hg) rfl rfl)
  · let z : Slot := { x with
      seq := x.seq + 1, retained := some r
      run := { x.run with flags := .clear, gateIndex := x.run.gateIndex + 1 } }
    have hfall := hfalls r hr
    have hmore (a : Option PendingA) := Slot.moreGates_repeats
      (x := { z with run := { z.run with pendingA := a } }) (.inl hg)
    have hclose : take .gateClose = _ := Slot.takeBoundary_close hfall.state_ne.2.2
    rw [hclose, Slot.closeGate_of_falls hfall (Nat.lt_of_succ_lt hi),
      Slot.closed_eq_of_none_passed hp hi]
    by_cases h : x.config.repeats = 0 ∨ x.run.gateIndex + 1 < x.config.repeats
    · refine Eq.trans (congrArg (·, [r]) ?_) (if_pos h).symm
      refine (Slot.afterGate_of_timed ((hmore _).mpr ⟨hl, h⟩) hg t).trans ?_
      exact (Slot.openGate_pendingA (x := z) (some next)).trans (hopen _ _)
    · refine Eq.trans ?_ (if_neg h).symm
      exact congrArg (·, [r]) (Slot.afterGate_of_none (Bool.eq_false_iff.mpr fun hm => h ((hmore _).mp hm).2) t)
  · intro r index goes fresh waits
    have hrecord : x.lateRecord i = r := rfl
    have hexpire : take .closeTimeout = ((x.resulted r).afterExpiry t x.run.pendingGate, [r]) :=
      Slot.expireClose_eq (by omega) t
    refine ⟨fun p hp hg => ?_, fun p hp hg => ?_, fun hp => ?_⟩
    · rw [hp, Slot.afterExpiry_of_timed hk hg] at hexpire
      exact hexpire
    · rw [hp, Slot.afterExpiry_of_other hk hg] at hexpire
      exact hexpire
    · rw [hp] at hexpire
      have hends {y : Slot} (hy : (x.resulted r).afterExpiry t none = y) : take .closeTimeout = (y, [r]) :=
        hexpire.trans (congrArg (·, [r]) hy)
      refine ⟨fun hl => ?_, fun hl => ⟨fun hg => ?_, fun hg => ?_, fun g l hg => ?_, fun f hg => ?_⟩⟩
      · exact hends (Slot.expired_ends hi (Slot.moreGates_of_last hl))
      · have htimed := hends (Slot.expired_timed hi hk hg hl hp)
        split
        · next h => exact htimed.trans (congrArg (·, [r]) (if_pos h))
        · next h => exact htimed.trans (congrArg (·, [r]) (if_neg h))
      · refine hends (Slot.expired_ends hi (Bool.eq_false_iff.mpr fun hm => ?_))
        have hkind := ((Slot.moreGates_open (x := x.resulted r) hg).mp hm).2.1
        cases hk.symm.trans hkind
      · have hexternal := hends (Slot.expired_external hi hg hl)
        split
        · next h => exact hexternal.trans (congrArg (·, [r]) (if_pos h))
        · next h => exact hexternal.trans (congrArg (·, [r]) (if_neg h))
      · have hplan := hends (Slot.expired_plan hi hg hl)
        split
        · next h => exact hplan.trans (congrArg (·, [r]) (if_pos h))
        · next h => exact hplan.trans (congrArg (·, [r]) (if_neg h))
  · intro follows
    have hend {y : Slot} {rs : List Record} (h : x.closeStep i t = (y, rs)) :
        take .stepEnd = (y.followStep plan t, rs) := Slot.endStep_eq h
    have hgates : ∀ g l, x.config.gate ≠ .external g l := fun g l hg' => by cases hg.symm.trans hg'
    have htimed : x.config.gate ≠ .timed := fun hg' => by cases hg.symm.trans hg'
    refine ⟨fun hs hl => ?_, fun r hr hl hp hi hstop => ?_, fun hs hi => ?_, fun hs hi => ?_⟩
    · have htake := hend ((Slot.closeStep_of_open (by rw [hs]; nofun)).trans (Slot.closeGate_of_armed hs))
      have hidle : x.state ≠ .idle := by rw [hs]; nofun
      have hclosing : x.state ≠ .closing := by rw [hs]; nofun
      refine ⟨fun ha => ?_, fun m hm => ⟨fun hk => ?_, fun hk => ?_⟩⟩
      · rw [htake, Slot.followStep_of_last hidle hstep hn ha, if_neg hclosing]
      · rw [htake, Slot.followStep_of_follows hidle hstep hn hm, Slot.startStep_of_wait hclosing hk,
          Slot.awaitGate_of_other (x := x.inStep plan m t) hgates]
        exact congrArg (·, []) (by rw [← hs]; rfl)
      · rw [htake, Slot.followStep_of_follows hidle hstep hn hm, Slot.startStep_of_measure hclosing hk hl, hopen]
        rfl
    · intro y
      have hfall := hfalls r hr
      have hclosed : (x.closed r (if x.config.kind = .interval then none else x.run.pendingA)).afterGate t = y := by
        rw [Slot.closed_eq_of_none_passed hp hi]
        refine (Slot.afterGate_of_await ((Slot.moreGates_plan (f := f) ?_).mpr ⟨?_, ?_⟩) ?_ t).trans
          (Slot.awaitGate_of_other ?_)
        · exact hg
        · exact hl
        · exact hstop
        · exact htimed
        · exact hgates
      have htake : take .stepEnd = (y.followStep plan t, [r]) :=
        hend ((Slot.closeStep_of_open hfall.state_ne.2.2).trans
          ((Slot.closeGate_of_falls hfall (Nat.lt_of_succ_lt hi)).trans (congrArg (·, [r]) hclosed)))
      have hwait (m : Fin 64) : (y.inStep plan m t).awaitGate = y.inStep plan m t := Slot.awaitGate_of_other hgates
      refine ⟨fun ha => ?_, fun m hm => ⟨fun hk => ?_, fun hk => ?_⟩⟩
      · rw [htake, Slot.followStep_of_last (x := y) (by nofun) hstep hn ha]
        rfl
      · rw [htake, Slot.followStep_of_follows (x := y) (by nofun) hstep hn hm,
          Slot.startStep_of_wait (x := y) (by nofun) hk, hwait]
        rfl
      · rw [htake, Slot.followStep_of_follows (x := y) (by nofun) hstep hn hm,
          Slot.startStep_of_measure (x := y) (by nofun) hk hl, hopen]
        rfl
    · let z : Slot := { x with
        state := .closing, run := { x.run with tClose := some t, pendingGate := none } }
      have hnone : ({ x with state := .closing, run := { x.run with tClose := some t } } : Slot).formPending t = z :=
        Slot.formPending_of_none fun h => htimed h.1
      have htake : take .stepEnd = (z.followStep plan t, []) :=
        hend ((Slot.closeStep_of_open (by rw [hs]; nofun)).trans
          ((Slot.closeGate_of_counting hs).trans (congrArg (·, []) hnone)))
      refine ⟨fun ha => ?_, fun m hm => ?_⟩
      · rw [htake, Slot.followStep_of_last (x := z) (by nofun) hstep hn ha]
        rfl
      · rw [htake, Slot.followStep_of_follows (x := z) (by nofun) hstep hn hm, 
          Slot.startStep_of_none_pending (x := z) rfl rfl hi]
        rfl
    · intro passed
      let z : Slot := { x with run := { x.run with passed := passed, pendingGate := none } }
      have htake : take .stepEnd = (z.followStep plan t, []) := hend (Slot.closeStep_of_closing hs)
      have hidle : z.state ≠ .idle := by
        change x.state ≠ .idle
        rw [hs]
        nofun
      refine ⟨fun ha => ?_, fun m hm => ?_⟩
      · rw [htake, Slot.followStep_of_last (x := z) hidle hstep hn ha, if_pos (by exact hs)]
      · have hpassed : passed ≤ x.run.passed + 1 := by
          dsimp only [passed]
          split <;> omega
        have hindex : z.run.gateIndex + 1 + z.run.passed < 2 ^ 32 - 1 := by
          change x.run.gateIndex + 1 + passed < _
          omega
        rw [htake, Slot.followStep_of_follows (x := z) hidle hstep hn hm,
          Slot.startStep_of_none_pending (x := z) hs rfl hindex]
        rfl

end Sys2Proof.Machine
end

section
/-!
SUPPORT. The cells on the wire as rows of the operation table (R158, R161, R162).
-/

namespace Sys2Proof.Machine

/-! ## The fields of a cell by their places (Tables 11-1 and 11-2, R161) -/

section Fields
variable (c : Cell)

theorem argument_eq (off w : Nat) : argument c off w = c.payload.toNat / 2 ^ (48 - off - w) % 2 ^ w :=
  extractLsb'_toNat_eq_div ..

theorem cellKind_eq : cellKind c = c.header.toNat / 16 := by
  have hc := c.header.isLt
  rw [cellKind, extractLsb'_toNat_eq_div]
  exact Nat.mod_eq_of_lt (by omega)

theorem commandCode_eq : commandCode c = c.payload.toNat / 2 ^ 48 % 64 := extractLsb'_toNat_eq_div ..

theorem commandHighBits_eq : commandHighBits c = c.payload.toNat / 2 ^ 54 % 4 := extractLsb'_toNat_eq_div ..

theorem argument_lt (off w : Nat) : argument c off w < 2 ^ w := (c.payload.extractLsb' (48 - off - w) w).isLt

theorem fits_argument (off w : Nat) : fits w (argument c off w) = true := decide_eq_true (argument_lt c off w)

theorem ofNat_argument (off w : Nat) :
    BitVec.ofNat w (argument c off w) = c.payload.extractLsb' (48 - off - w) w :=
  (BitVec.ofNat_toNat _ _).trans (BitVec.setWidth_eq _)

end Fields

theorem extractLsb'_eq_ofNat_div {w : Nat} (b : BitVec w) (start len : Nat) :
    b.extractLsb' start len = BitVec.ofNat len (b.toNat / 2 ^ start) := by
  apply BitVec.eq_of_toNat_eq
  rw [extractLsb'_toNat_eq_div, BitVec.toNat_ofNat]

theorem getLsbD_eq_decide_div {w : Nat} (b : BitVec w) (i : Nat) :
    b.getLsbD i = decide (b.toNat / 2 ^ i % 2 = 1) := by
  rw [BitVec.getLsbD, Nat.testBit_eq_decide_div_mod_eq]

/-! ## The operands -/

section Operands
variable {c : Cell}

theorem deskew_argument :
    (BitVec.ofNat 21 (argument c 7 21)).toInt =
      if argument c 7 21 < 2 ^ 20 then (argument c 7 21 : Int) else (argument c 7 21 : Int) - 2 ^ 21 := by
  have h := argument_lt c 7 21
  rw [BitVec.toInt_eq_toNat_cond, BitVec.toNat_ofNat, Nat.mod_eq_of_lt h]
  split <;> split <;> omega

theorem decodeWords_eq :
    decodeWords c =
      [BitVec.ofNat 16 (argument c 0 16), BitVec.ofNat 16 (argument c 16 16),
        BitVec.ofNat 16 (argument c 32 16)].take (commandHighBits c) := by
  simp only [ofNat_argument]
  rfl

theorem decodeStatusItem_of_le (h : 5 ≤ argument c 0 3) : decodeStatusItem c = .other (argument c 0 3) := by
  rw [decodeStatusItem]
  split
  case h_6 => rfl
  all_goals omega

theorem decodeChanItem_of_le (h : 6 ≤ argument c 4 3) : decodeChanItem c = .other (argument c 4 3) := by
  rw [decodeChanItem]
  split
  case h_7 => rfl
  all_goals omega

theorem decodeSlotArg_of_endpointB (h : argument c 3 4 = 2) :
    decodeSlotArg c = .endpointB (decide (argument c 7 1 = 1)) (argument c 8 4) (argument c 12 2) := by
  simp only [decodeSlotArg, h]
  rfl

theorem decodeSlotArg_of_le (h : 12 ≤ argument c 3 4) : decodeSlotArg c = .other (argument c 3 4) := by
  rw [decodeSlotArg]
  split
  case h_13 => rfl
  all_goals omega

theorem decodeSlotItem_of_le (h : 5 ≤ argument c 3 3) : decodeSlotItem c = .other (argument c 3 3) := by
  rw [decodeSlotItem]
  split
  case h_6 => rfl
  all_goals omega

theorem decodeLoadArg_of_le (h : 10 ≤ argument c 0 4) : decodeLoadArg c = .other (argument c 0 4) := by
  rw [decodeLoadArg, if_neg (by omega), if_neg (by omega), if_neg (by omega)]

theorem decodeReadArg_of_le (h : 9 ≤ argument c 0 4) : decodeReadArg c = .other (argument c 0 4) := by
  rw [decodeReadArg, if_neg (by omega), if_neg (by omega)]

theorem decodeCommand_of_le (h : 27 ≤ commandCode c) : decodeCommand c = .unknownCommand c (commandCode c) := by
  rw [decodeCommand]
  split
  case h_28 => rfl
  all_goals omega

end Operands

/-! ## The rows that the wire can carry -/

section WellFormed
variable (c : Cell)

theorem decodeChanArg_wellFormed : (decodeChanArg c).wellFormed = true := by
  rw [decodeChanArg]
  split
  case h_5 =>
    have h := argument_lt c 7 21
    rw [deskew_argument, ChanArg.wellFormed, Bool.and_eq_true, decide_eq_true_eq, decide_eq_true_eq]
    split <;> omega
  all_goals exact fits_argument c _ _

theorem decodeChanItem_wellFormed : (decodeChanItem c).wellFormed = true := by
  rw [decodeChanItem]
  split
  case h_7 =>
    refine Bool.and_eq_true_iff.mpr ⟨decide_eq_true ?_, fits_argument c _ _⟩
    simp only [imp_false] at *
    omega
  all_goals rfl

theorem decodeStatusItem_wellFormed : (decodeStatusItem c).wellFormed = true := by
  rw [decodeStatusItem]
  split
  case h_6 =>
    refine Bool.and_eq_true_iff.mpr ⟨decide_eq_true ?_, fits_argument c _ _⟩
    simp only [imp_false] at *
    omega
  all_goals rfl

theorem decodeLoadArg_wellFormed : (decodeLoadArg c).wellFormed = true := by
  rw [decodeLoadArg]
  split
  · next h => exact decide_eq_true h
  · split
    · rfl
    · split
      · rfl
      · exact Bool.and_eq_true_iff.mpr ⟨decide_eq_true (by omega), fits_argument c _ _⟩

theorem decodeReadArg_wellFormed : (decodeReadArg c).wellFormed = true := by
  rw [decodeReadArg]
  split
  · next h => exact decide_eq_true h
  · split
    · rfl
    · exact Bool.and_eq_true_iff.mpr ⟨decide_eq_true (by omega), fits_argument c _ _⟩

theorem decodeArmArg_wellFormed : (decodeArmArg c).wellFormed = true := by
  have h := argument_lt c 7 2
  rw [decodeArmArg]
  split
  · rfl
  · rfl
  · exact Bool.and_eq_true_iff.mpr ⟨fits_argument c _ _, fits_argument c _ _⟩
  · refine Bool.and_eq_true_iff.mpr ⟨decide_eq_true ?_, fits_argument c _ _⟩
    simp only [imp_false] at *
    omega

theorem decodeGateArg_wellFormed : (decodeGateArg c).wellFormed = true := by
  rw [decodeGateArg]
  split
  · rfl
  · exact Bool.and_eq_true_iff.mpr ⟨fits_argument c _ _, fits_argument c _ _⟩
  · exact fits_argument c _ _
  · rfl

theorem decodeSlotArg_wellFormed : (decodeSlotArg c).wellFormed = true := by
  rw [decodeSlotArg]
  split
  case h_2 | h_3 => exact Bool.and_eq_true_iff.mpr ⟨fits_argument c _ _, fits_argument c _ _⟩
  case h_4 => exact decodeArmArg_wellFormed c
  case h_5 => exact decodeGateArg_wellFormed c
  case h_13 =>
    refine Bool.and_eq_true_iff.mpr ⟨decide_eq_true ?_, fits_argument c _ _⟩
    simp only [imp_false] at *
    omega
  all_goals exact fits_argument c _ _

theorem decodeSlotItem_wellFormed : (decodeSlotItem c).wellFormed = true := by
  rw [decodeSlotItem]
  split
  case h_5 => exact fits_argument c _ _
  case h_6 =>
    refine Bool.and_eq_true_iff.mpr ⟨decide_eq_true ?_, fits_argument c _ _⟩
    simp only [imp_false] at *
    omega
  all_goals rfl

theorem decodeSourceArg_wellFormed : (decodeSourceArg c).wellFormed = true := by
  rw [decodeSourceArg]
  split
  case h_1 | h_2 => rfl
  case h_6 => exact Bool.and_eq_true_iff.mpr ⟨fits_argument c _ _, fits_argument c _ _⟩
  all_goals exact fits_argument c _ _

theorem isCommand_of {n : Nat} (hk : cellKind c = 3) (hc : commandCode c = n) : isCommand n c = true := by
  rw [isCommand, hk, hc, beq_self_eq_true, beq_self_eq_true, Bool.and_self]

theorem decodeTimeSet_wellFormed (hk : cellKind c = 3) (hc : commandCode c = 7) :
    (decodeTimeSet c).wellFormed = true ∧ (decodeTimeSet c).cell? = some c := by
  have hcommand := isCommand_of c hk hc
  rw [decodeTimeSet]
  split
  case h_1 | h_2 => exact ⟨Bool.and_eq_true_iff.mpr ⟨hcommand, fits_argument c _ _⟩, rfl⟩
  all_goals exact ⟨hcommand, rfl⟩

theorem decodeMarkSet_wellFormed (hk : cellKind c = 3) (hc : commandCode c = 24) :
    (decodeMarkSet c).wellFormed = true ∧ (decodeMarkSet c).cell? = some c := by
  have hmarker : (isCommand 24 c && fits 2 (argument c 0 2)) = true :=
    Bool.and_eq_true_iff.mpr ⟨isCommand_of c hk hc, fits_argument c _ _⟩
  rw [decodeMarkSet]
  split
  · exact ⟨Bool.and_eq_true_iff.mpr ⟨hmarker, decodeSourceArg_wellFormed c⟩, rfl⟩
  · exact ⟨Bool.and_eq_true_iff.mpr ⟨hmarker, fits_argument c _ _⟩, rfl⟩
  · exact ⟨Bool.and_eq_true_iff.mpr ⟨hmarker, fits_argument c _ _⟩, rfl⟩
  · exact ⟨Bool.and_eq_true_iff.mpr ⟨hmarker, rfl⟩, rfl⟩

/-- The slot of ARM-AT, of three bits. -/
theorem fits_armAtSlot : fits 3 (commandHighBits c * 2 + argument c 0 1) = true := by
  have hhigh : commandHighBits c < 2 ^ 2 := (c.payload.extractLsb' 54 2).isLt
  have hlow := argument_lt c 0 1
  exact decide_eq_true (by omega)

theorem decodeWords_length : (decodeWords c).length ≤ 3 := (List.length_take_le' _ _)

/-- A COMMAND cell is read as a row that it spells and that carries it. -/
theorem decodeCommand_wellFormed (hk : cellKind c = 3) :
    (decodeCommand c).wellFormed = true ∧ (decodeCommand c).cell? = some c := by
  rw [decodeCommand]
  split
  case h_8 hc => exact decodeTimeSet_wellFormed c hk hc
  case h_25 hc => exact decodeMarkSet_wellFormed c hk hc
  case h_28 =>
    refine ⟨Bool.and_eq_true_iff.mpr ⟨isCommand_of c hk rfl, decide_eq_true ?_⟩, rfl⟩
    simp only [imp_false] at *
    omega
  all_goals
    next hc =>
      simp only [Instr.wellFormed, Instr.cell?, isCommand_of c hk hc, fits_argument, fits_armAtSlot,
        decodeStatusItem_wellFormed, decodeChanArg_wellFormed, decodeChanItem_wellFormed,
        decodeLoadArg_wellFormed, decodeReadArg_wellFormed, decodeSlotArg_wellFormed,
        decodeSlotItem_wellFormed, decodeWords_length, decide_true, Bool.and_self, and_self]

theorem decodeCell_of_command (hk : cellKind c = 3) : decodeCell c = decodeCommand c := by
  simp only [decodeCell, hk]

theorem decodeCell_wellFormed : (decodeCell c).wellFormed = true ∧ (decodeCell c).cell? = some c := by
  rw [decodeCell]
  split
  · next hk => exact ⟨beq_iff_eq.mpr hk, rfl⟩
  · next hk => exact ⟨beq_iff_eq.mpr hk, rfl⟩
  · next hk => exact decodeCommand_wellFormed c hk
  · next h1 h2 h3 =>
    refine ⟨?_, rfl⟩
    rw [Instr.wellFormed, beq_eq_false_iff_ne.mpr h1, beq_eq_false_iff_ne.mpr h2, beq_eq_false_iff_ne.mpr h3]
    rfl

end WellFormed

section Kinds
variable {c : Cell}

theorem decodeCell_of_other (h1 : cellKind c ≠ 1) (h2 : cellKind c ≠ 2) (h3 : cellKind c ≠ 3) :
    decodeCell c = .relayCell c := by
  rw [decodeCell]
  split
  · next h => exact absurd h h1
  · next h => exact absurd h h2
  · next h => exact absurd h h3
  · rfl

theorem decodeCell_of_epoch (h : cellKind c = 2) :
    decodeCell c = .epochCell c (BitVec.ofNat 47 (c.payload.toNat / 2 ^ 16)) := by
  simp only [decodeCell, h, decodeEpoch, extractLsb'_eq_ofNat_div]

/-- The fields of an EDGE cell by their places (Table 11-2). -/
theorem decodeCell_of_edge (h : cellKind c = 1) (slice : Fin 32) (lane : Fin 4) (fine : Fin 256)
    (hslice : slice.val = c.payload.toNat / 2 ^ 59) (hlane : lane.val = c.payload.toNat / 2 ^ 57 % 4)
    (hfine : fine.val = c.payload.toNat / 2 ^ 24 % 256) :
    decodeCell c =
      .edgeCell c slice lane (if c.payload.toNat / 2 ^ 56 % 2 = 0 then .rise else .fall)
        (BitVec.ofNat 16 (c.payload.toNat / 2 ^ 32)) fine (decide (c.payload.toNat / 2 ^ 55 % 2 = 1)) := by
  have hp := c.payload.isLt
  have hslice' : (c.payload.extractLsb' 59 5).toFin = slice := Fin.ext (by
    rw [hslice]
    exact (extractLsb'_toNat_eq_div ..).trans (Nat.mod_eq_of_lt (by omega)))
  have hlane' : (c.payload.extractLsb' 57 2).toFin = lane := Fin.ext (by
    rw [hlane]
    exact extractLsb'_toNat_eq_div ..)
  have hfine' : (c.payload.extractLsb' 24 8).toFin = fine := Fin.ext (by
    rw [hfine]
    exact extractLsb'_toNat_eq_div ..)
  have hsense : (if c.payload.getLsbD 56 then Sense.fall else .rise) =
      if c.payload.toNat / 2 ^ 56 % 2 = 0 then .rise else .fall := by
    rw [getLsbD_eq_decide_div]
    rcases Nat.mod_two_eq_zero_or_one (c.payload.toNat / 2 ^ 56) with h | h <;> rw [h] <;> rfl
  simp only [decodeCell, h, decodeEdge]
  rw [hslice', hlane', hfine', hsense, extractLsb'_eq_ofNat_div, getLsbD_eq_decide_div]

end Kinds

/-- Settles O10: each decoder is read at the code and the operands that the cell's places spell. -/
theorem everyCellIsReadAsItsRow : Obligations.EveryCellIsReadAsItsRow := by
  intro c
  refine ⟨(decodeCell_wellFormed c).1, (decodeCell_wellFormed c).2, ?_⟩
  intro kind p code high arg is when
  have hkind : kind = cellKind c := (cellKind_eq c).symm
  have hcode : code = commandCode c := (commandCode_eq c).symm
  have hhigh : high = commandHighBits c := (commandHighBits_eq c).symm
  have harg : arg = argument c := funext fun off => funext fun w => (argument_eq c off w).symm
  clear_value kind code high arg
  subst hkind hcode hhigh harg
  have command {n : Nat} {i : Instr} (h : commandCode c = n → decodeCommand c = i) : is n i :=
    fun hk hc => (decodeCell_of_command c hk).trans (h hc)
  have status {x : StatusItem} (h : decodeStatusItem c = x) : is 4 (.status c x) :=
    command fun hc => by simp only [decodeCommand, hc, h]
  have timeSet {i : Instr} (h : decodeTimeSet c = i) : is 7 i :=
    command fun hc => by simp only [decodeCommand, hc, h]
  have chanWrite {x : ChanArg} (h : decodeChanArg c = x) : is 8 (.chanWrite c (argument c 0 4) x) :=
    command fun hc => by simp only [decodeCommand, hc, h]
  have chanRead {x : ChanItem} (h : decodeChanItem c = x) : is 9 (.chanRead c (argument c 0 4) x) :=
    command fun hc => by simp only [decodeCommand, hc, h]
  have loadOpen {x : LoadArg} (h : decodeLoadArg c = x) :
      is 10 (.loadOpen c x (argument c 4 8) (argument c 12 7)) :=
    command fun hc => by simp only [decodeCommand, hc, h]
  have tableRead {x : ReadArg} (h : decodeReadArg c = x) : is 14 (.tableRead c x (argument c 4 9)) :=
    command fun hc => by simp only [decodeCommand, hc, h]
  have slotSet {x : SlotArg} (h : decodeSlotArg c = x) : is 17 (.slotSet c (argument c 0 3) x) :=
    command fun hc => by simp only [decodeCommand, hc, h]
  have slotGet {x : SlotItem} (h : decodeSlotItem c = x) : is 18 (.slotGet c (argument c 0 3) x) :=
    command fun hc => by simp only [decodeCommand, hc, h]
  have markSet {i : Instr} (h : decodeMarkSet c = i) : is 24 i :=
    command fun hc => by simp only [decodeCommand, hc, h]
  refine ⟨fun h1 h2 h3 => decodeCell_of_other h1 h2 h3,
    fun h => decodeCell_of_edge h, fun h => decodeCell_of_epoch h, ?_⟩
  -- NAME, MODE, IDENT and NODE-RESET
  iterate 4 refine ⟨command fun hc => by simp only [decodeCommand, hc], ?_⟩
  -- STATUS
  iterate 5 refine ⟨fun h => status (by simp only [decodeStatusItem, h]), ?_⟩
  refine ⟨fun h => status (decodeStatusItem_of_le h), ?_⟩
  -- CLEAR and ATTN-SET
  iterate 2 refine ⟨command fun hc => by
      simp only [ofNat_argument, decodeCommand, hc]
      rfl, ?_⟩
  -- TIME-SET
  iterate 4 refine ⟨fun h => timeSet (by simp only [decodeTimeSet, h]), ?_⟩
  -- CHAN-WRITE
  iterate 4 refine ⟨fun h => chanWrite (by simp only [decodeChanArg, h]), ?_⟩
  refine ⟨fun h => chanWrite (by simp only [decodeChanArg, h, deskew_argument]), ?_⟩
  iterate 3 refine ⟨fun h => chanWrite (by simp only [decodeChanArg, h]), ?_⟩
  -- CHAN-READ
  iterate 6 refine ⟨fun h => chanRead (by simp only [decodeChanItem, h]), ?_⟩
  refine ⟨fun h => chanRead (decodeChanItem_of_le h), ?_⟩
  -- LOAD-OPEN
  refine ⟨fun h => loadOpen (if_pos h), ?_⟩
  iterate 2 refine ⟨fun h => loadOpen (by rw [decodeLoadArg, h]; rfl), ?_⟩
  refine ⟨fun h => loadOpen (decodeLoadArg_of_le h), ?_⟩
  -- LOAD-DATA, LOAD-COMMIT and LOAD-CANCEL
  refine ⟨command fun hc => by simp only [decodeCommand, hc, decodeWords_eq], ?_⟩
  iterate 2 refine ⟨command fun hc => by simp only [decodeCommand, hc], ?_⟩
  -- TABLE-READ
  refine ⟨fun h => tableRead (if_pos h), ?_⟩
  refine ⟨fun h => tableRead (by rw [decodeReadArg, h]; rfl), ?_⟩
  refine ⟨fun h => tableRead (decodeReadArg_of_le h), ?_⟩
  -- CAL-RUN and CAL-CANCEL
  iterate 2 refine ⟨command fun hc => by simp only [decodeCommand, hc], ?_⟩
  -- SLOT-SET
  iterate 2 refine ⟨fun h => slotSet (by simp only [decodeSlotArg, h]), ?_⟩
  refine ⟨fun h => slotSet (decodeSlotArg_of_endpointB h), ?_⟩
  iterate 4 refine ⟨fun h => slotSet (by simp only [decodeSlotArg, decodeArmArg, h.1, h.2]), ?_⟩
  iterate 4 refine ⟨fun h => slotSet (by simp only [decodeSlotArg, decodeGateArg, h.1, h.2]), ?_⟩
  iterate 7 refine ⟨fun h => slotSet (by simp only [decodeSlotArg, h]), ?_⟩
  refine ⟨fun h => slotSet (decodeSlotArg_of_le h), ?_⟩
  -- SLOT-GET
  iterate 5 refine ⟨fun h => slotGet (by simp only [decodeSlotItem, h]), ?_⟩
  refine ⟨fun h => slotGet (decodeSlotItem_of_le h), ?_⟩
  -- ARM to RESUME
  iterate 5 refine ⟨command fun hc => by simp only [decodeCommand, hc], ?_⟩
  -- MARK-SET
  iterate 8 refine ⟨fun h => markSet (by simp only [decodeMarkSet, decodeSourceArg, h.1, h.2]), ?_⟩
  iterate 2 refine ⟨fun h => markSet (by simp only [decodeMarkSet, h]), ?_⟩
  -- MARK-LEVEL and QUEUE-SET
  iterate 2 refine ⟨command fun hc => by simp only [decodeCommand, hc], ?_⟩
  exact fun h => command fun hc => (decodeCommand_of_le (hc ▸ h)).trans (by rw [hc])

end Sys2Proof.Machine
end

section
/-!
SUPPORT. The groups of a cell: nibbles and bytes round trip, and what the judgement of twenty groups says of
them (R155).
-/

namespace Sys2Proof.Machine

/-! ## Nibbles and bytes as groups -/

theorem nibbleOf_groupOf (n : BitVec 4) : nibbleOf (groupOf n) = some n := by
  revert n
  decide

theorem groupOf_of_nibbleOf {g : Group} {n : BitVec 4} (h : nibbleOf g = some n) : g = groupOf n := by
  revert g n
  decide

theorem groupOf_ne_fillMark (n : BitVec 4) : groupOf n ≠ fillMark := by
  revert n
  decide

theorem byte_nibbles (b : Byte) : b.extractLsb' 4 4 ++ b.extractLsb' 0 4 = b :=
  BitVec.extractLsb'_append_extractLsb' (w := 4) (len := 4)

/-- The groups of some bytes are those bytes (R155). -/
theorem bytesOf_byteGroups (bs : List Byte) : bytesOf (bs.flatMap byteGroups) = some bs := by
  induction bs with
  | nil => rfl
  | cons b bs ih =>
    change bytesOf (groupOf _ :: groupOf _ :: bs.flatMap byteGroups) = _
    rw [bytesOf, nibbleOf_groupOf, nibbleOf_groupOf, ih]
    exact congrArg (fun x => some (x :: bs)) (byte_nibbles b)

/-- Groups that are some bytes are the groups of those bytes. -/
theorem eq_byteGroups_of_bytesOf {gs : List Group} {bs : List Byte} (h : bytesOf gs = some bs) :
    gs = bs.flatMap byteGroups := by
  induction gs using bytesOf.induct generalizing bs with
  | case1 =>
    cases h
    rfl
  | case2 g => cases h
  | case3 g k gs x y zs hz hx hy ih =>
    rw [bytesOf, hx, hy, hz] at h
    cases h
    rw [groupOf_of_nibbleOf hx, groupOf_of_nibbleOf hy, ih hz]
    have hx' : (x ++ y).extractLsb' 4 4 = x := BitVec.extractLsb'_append_eq_left
    have hy' : (x ++ y).extractLsb' 0 4 = y := BitVec.extractLsb'_append_eq_right
    change _ = groupOf ((x ++ y).extractLsb' 4 4) :: groupOf ((x ++ y).extractLsb' 0 4) :: _
    rw [hx', hy']
    rfl
  | case4 g k gs hnone =>
    rw [bytesOf] at h
    split at h
    · next x y zs hx hy hz => exact absurd hz (hnone x y zs hx hy)
    · cases h

/-! ## The payload and its bytes -/

theorem append_byte_toNat {w : Nat} (q : BitVec w) (b : Byte) :
    (q ++ b).toNat = q.toNat * 2 ^ 8 + b.toNat := by
  rw [BitVec.toNat_append, ← Nat.shiftLeft_add_eq_or_of_lt b.isLt, Nat.shiftLeft_eq]

theorem eightBytes_toNat (p0 p1 p2 p3 p4 p5 p6 p7 : Byte) :
    (p0 ++ p1 ++ p2 ++ p3 ++ p4 ++ p5 ++ p6 ++ p7).toNat =
      p0.toNat * 2 ^ 56 + p1.toNat * 2 ^ 48 + p2.toNat * 2 ^ 40 + p3.toNat * 2 ^ 32 + p4.toNat * 2 ^ 24 +
        p5.toNat * 2 ^ 16 + p6.toNat * 2 ^ 8 + p7.toNat := by
  simp only [append_byte_toNat]
  ring

theorem payload_eq_bytes (p : BitVec 64) :
    p.extractLsb' 56 8 ++ p.extractLsb' 48 8 ++ p.extractLsb' 40 8 ++ p.extractLsb' 32 8 ++
      p.extractLsb' 24 8 ++ p.extractLsb' 16 8 ++ p.extractLsb' 8 8 ++ p.extractLsb' 0 8 = p := by
  have hp := p.isLt
  refine BitVec.eq_of_toNat_eq ((eightBytes_toNat ..).trans ?_)
  simp only [extractLsb'_toNat_eq_div]
  omega

theorem cellBytes_append (h p0 p1 p2 p3 p4 p5 p6 p7 : Byte) :
    cellBytes ⟨h, p0 ++ p1 ++ p2 ++ p3 ++ p4 ++ p5 ++ p6 ++ p7⟩ = [h, p0, p1, p2, p3, p4, p5, p6, p7] := by
  have hvalue := eightBytes_toNat p0 p1 p2 p3 p4 p5 p6 p7
  have hextract : ∀ (k : Nat) (b : Byte),
      (p0 ++ p1 ++ p2 ++ p3 ++ p4 ++ p5 ++ p6 ++ p7).toNat / 2 ^ k % 2 ^ 8 = b.toNat →
      (p0 ++ p1 ++ p2 ++ p3 ++ p4 ++ p5 ++ p6 ++ p7).extractLsb' k 8 = b := fun k b hb =>
    BitVec.eq_of_toNat_eq ((extractLsb'_toNat_eq_div ..).trans hb)
  simp only [cellBytes, List.cons.injEq, and_true, true_and]
  have h0 := p0.isLt
  have h1 := p1.isLt
  have h2 := p2.isLt
  have h3 := p3.isLt
  have h4 := p4.isLt
  have h5 := p5.isLt
  have h6 := p6.isLt
  have h7 := p7.isLt
  and_intros
  all_goals
    refine hextract _ _ ?_
    rw [hvalue]
    omega

/-! ## The judgement of twenty groups -/

/-- The groups of a cell are judged that cell (R155). -/
theorem judgeGroups_cellGroups (c : Cell) : judgeGroups (cellGroups c) = .good c := by
  have hfill : cellGroups c ≠ fillGroups := fun h =>
    groupOf_ne_fillMark _ (List.cons.inj (show groupOf (c.header.extractLsb' 4 4) :: _ = fillMark :: _ from h)).1
  have hbytes : bytesOf (cellGroups c) = some (cellBytes c ++ [cellCheck c]) := bytesOf_byteGroups _
  rw [judgeGroups, if_neg hfill, hbytes]
  refine (congrArg (fun p => if cellCheck c = cellCheck ⟨c.header, p⟩ then Verdict20.good ⟨c.header, p⟩
    else .bad) (payload_eq_bytes c.payload)).trans ?_
  exact if_pos rfl

/-- Nothing but the groups of a cell is judged that cell (R155). -/
theorem eq_cellGroups_of_judgeGroups {gs : List Group} {c : Cell} (h : judgeGroups gs = .good c) :
    gs = cellGroups c := by
  rw [judgeGroups] at h
  split at h
  · cases h
  · split at h
    · next h0 p0 p1 p2 p3 p4 p5 p6 p7 check hbytes =>
      dsimp only at h
      split at h
      · next hcheck =>
        cases h
        rw [eq_byteGroups_of_bytesOf hbytes, cellGroups, ← hcheck, cellBytes_append]
        rfl
      · cases h
    · cases h

/-! ## The groups by their places -/

theorem byteGroups_eq (b : Byte) :
    byteGroups b = [dataGroups.getD (b.toNat / 16 % 16) 0, dataGroups.getD (b.toNat % 16) 0] := by
  rw [byteGroups, groupOf, groupOf, extractLsb'_toNat_eq_div, extractLsb'_toNat_eq_div, pow_zero, Nat.div_one]
  rfl

/-- The twenty groups of a cell, the high nibble of header, payload and check first (R155). -/
theorem cellGroups_eq (c : Cell) :
    cellGroups c =
      (List.range 20).map fun k => dataGroups.getD
        ((c.header.toNat * 2 ^ 72 + c.payload.toNat * 2 ^ 8 + (cellCheck c).toNat) / 16 ^ (19 - k) % 16) 0 := by
  have hh := c.header.isLt
  have hp := c.payload.isLt
  have hk := (cellCheck c).isLt
  simp only [cellGroups, cellBytes, List.cons_append, List.nil_append, List.flatMap_cons, List.flatMap_nil,
    byteGroups_eq, extractLsb'_toNat_eq_div, List.range_eq_range', List.range', List.map_cons, List.map_nil,
    List.cons.injEq, and_true]
  and_intros
  all_goals
    refine congrArg (dataGroups.getD · 0) ?_
    omega

end Sys2Proof.Machine
end

section
/-!
SUPPORT. The check byte bit by bit, and what the receiver reads of line symbols (R155, R156).
-/

namespace Sys2Proof.Machine

/-! ## The check bit by bit (R155) -/

/-- The bits of a word, the most significant first. -/
def msbs {w : Nat} (x : BitVec w) : List Bool := (List.range w).map x.getMsbD

theorem msbs_append {v w : Nat} (x : BitVec v) (y : BitVec w) : msbs (x ++ y) = msbs x ++ msbs y := by
  rw [msbs, List.range_add, List.map_append, List.map_map]
  congr 1
  · refine List.map_congr_left fun k hk => ?_
    rw [BitVec.getMsbD_append, if_neg (Nat.not_le.mpr (List.mem_range.mp hk))]
  · refine List.map_congr_left fun k hk => ?_
    rw [Function.comp, BitVec.getMsbD_append, if_pos (Nat.le_add_right _ _), Nat.add_sub_cancel_left]

/-- One bit enters the check register (R155). -/
def crcBit (r : Byte) (b : Bool) : Byte := if r.getMsbD 0 != b then (r <<< 1) ^^^ 0x07 else r <<< 1

/-- The register steps as if the bit at its top entered, and the rest of what is added moves up with it. -/
theorem crcShift_xor (r x : Byte) : crcShift (r ^^^ x) = crcBit r (x.getMsbD 0) ^^^ (x <<< 1) := by
  have htop : (r ^^^ x).getLsbD 7 = (r.getMsbD 0 != x.getMsbD 0) := by
    rw [BitVec.getLsbD_xor]
    simp [BitVec.getMsbD, bne]
  rw [crcShift, crcBit, htop, BitVec.shiftLeft_xor_distrib]
  split
  · rw [BitVec.xor_assoc, BitVec.xor_comm (x <<< 1), ← BitVec.xor_assoc]
  · rfl

/-- A byte enters the register bit by bit (R155). -/
theorem crcByte_eq_foldl (r b : Byte) : crcByte r b = (msbs b).foldl crcBit r := by
  have hshift : ∀ (r : Byte) (k : Nat), crcShift (r ^^^ (b <<< k)) = crcBit r (b.getMsbD k) ^^^ (b <<< (k + 1)) :=
    fun r k => by rw [crcShift_xor, BitVec.getMsbD_shiftLeft, Nat.zero_add, BitVec.shiftLeft_add]
  have hstart : r ^^^ b = r ^^^ (b <<< 0) := by rw [BitVec.shiftLeft_zero]
  have hend : b <<< 8 = 0 := BitVec.shiftLeft_eq_zero le_rfl
  rw [crcByte, hstart]
  iterate 8 rw [hshift]
  refine (congrArg (_ ^^^ ·) hend).trans ?_
  exact BitVec.xor_zero

theorem msbs_eightBytes (p0 p1 p2 p3 p4 p5 p6 p7 : Byte) :
    msbs (p0 ++ p1 ++ p2 ++ p3 ++ p4 ++ p5 ++ p6 ++ p7) =
      msbs p0 ++ msbs p1 ++ msbs p2 ++ msbs p3 ++ msbs p4 ++ msbs p5 ++ msbs p6 ++ msbs p7 := by
  simp only [msbs_append]

/-- The bytes of a cell in the order they are sent are its bits in order. -/
theorem flatMap_msbs_cellBytes (c : Cell) : (cellBytes c).flatMap msbs = msbs (c.header ++ c.payload) := by
  have hpayload : msbs c.payload = _ := (congrArg msbs (payload_eq_bytes c.payload)).symm.trans (msbs_eightBytes ..)
  rw [msbs_append, hpayload]
  simp only [cellBytes, List.flatMap_cons, List.flatMap_nil, List.append_nil, List.append_assoc]

theorem cellCheck_eq_foldl (c : Cell) : cellCheck c = (msbs (c.header ++ c.payload)).foldl crcBit 0xFF := by
  have hbyte : crcByte = fun r b => (msbs b).foldl crcBit r := funext fun r => funext fun b => crcByte_eq_foldl r b
  rw [cellCheck, crc, hbyte, ← flatMap_msbs_cellBytes, List.foldl_flatMap]

/-! ## The next 21 groups (R156) -/

section Line
variable {g : Group} {gs : List Group} {others : List Bool}

theorem groupSymbols_eq (g : Group) : groupSymbols g = (List.range 5).map fun k => g.getMsbD k := rfl

theorem takeGroups_cell (h : gs.length = 20) :
    takeGroups 21 (lineSymbols (g :: gs) ++ others) = some (g :: gs, others) :=
  (congrArg (takeGroups · _) (congrArg Nat.succ h).symm).trans (takeGroups_lineSymbols (g :: gs) others)

theorem alignedLine_cell (align : Machine.Alignment) (h : gs.length = 20) :
    alignedLine align (lineSymbols (g :: gs) ++ others) =
      some (if g = cellStart then decodeGroups align gs
        else if align = .locked then .badCell
        else .confirmingOtherCell, others) := by
  rw [alignedLine, takeGroups_cell h]

/-- In the search a CELL-START is found where it stands (R156). -/
theorem huntLine_cell (h : gs.length = 20) :
    huntLine (lineSymbols (cellStart :: gs) ++ others) =
      some (.huntCellStart gs, if gs = fillGroups then others else lineSymbols gs ++ others) := by
  have htake := takeGroups_cell (g := cellStart) (others := others) h
  have hline : lineSymbols (cellStart :: gs) ++ others =
      true :: true :: false :: false :: false :: (lineSymbols gs ++ others) := rfl
  rw [hline] at htake ⊢
  rw [huntLine, htake]
  refine (if_pos rfl).trans ?_
  rw [if_congr judgeGroups_eq_fill_iff rfl rfl]
  rfl

theorem symbolGroup_eq_cellStart {a b c d e : Bool} (h : symbolGroup a b c d e = cellStart) :
    [a, b, c, d, e] = [true, true, false, false, false] := by
  revert a b c d e
  decide

/-- The search passes over a symbol at which no CELL-START stands (R156). -/
theorem huntLine_skip {b : Bool} (h : 104 ≤ others.length)
    (hstart : (b :: others).take 5 ≠ [true, true, false, false, false]) :
    huntLine (b :: others) = huntLine others := by
  match others, h, hstart with
  | c :: d :: e :: f :: line, h, hstart =>
    have hlength : 5 * 20 ≤ line.length := by
      simp only [List.length_cons] at h
      omega
    obtain ⟨gs, behind, htake, -⟩ := takeGroups_of_le 20 line hlength
    rw [huntLine, takeGroups, htake]
    exact if_neg fun he => hstart (symbolGroup_eq_cellStart he)

/-- While the line holds too few symbols there is no event (R156). -/
theorem huntLine_of_lt {line : List Bool} (h : line.length < 105) : huntLine line = none := by
  cases line with
  | nil => rfl
  | cons b line =>
    rw [huntLine, takeGroups_of_lt 21 (b :: line) h]

theorem nextRow_of_lt (align : Machine.Alignment) {line : List Bool} (h : line.length < 105) :
    nextRow align line = none := by
  have haligned : ∀ align, alignedLine align line = none := fun align => by
    rw [alignedLine, takeGroups_of_lt 21 line h]
  cases align with
  | hunt => exact huntLine_of_lt h
  | confirming => exact haligned _
  | locked => exact haligned _

end Line

/-! ## The receiver (R156) -/

theorem receiveLine_of_none {symbols : List Bool} {s : State} (h : nextRow s.link.align symbols = none) (n : Nat) :
    receiveLine n symbols s = .next (s, symbols) := by
  cases n with
  | zero => rfl
  | succ n => rw [receiveLine, h]

theorem receiveLine_of_some {symbols others : List Bool} {i : Instr} {s t : State}
    (h : nextRow s.link.align symbols = some (i, others)) (he : exec i s = .next t) (n : Nat) :
    receiveLine (n + 1) symbols s = receiveLine n others t := by
  rw [receiveLine, h]
  dsimp only
  rw [he]

/-- Settles O9: the groups of a cell and back, its check bit by bit, and the events in line symbols. -/
theorem lineCodeRoundTrip : Obligations.LineCodeRoundTrip := by
  unfold Obligations.LineCodeRoundTrip
  intro table marked line
  have hfill : ∀ gs : List Group, judgeGroups gs = .fill ↔ gs = marked := fun gs => judgeGroups_eq_fill_iff
  refine ⟨judgeGroups_cellGroups, fun c => ?_, ?_, fun gs c => eq_cellGroups_of_judgeGroups, hfill,
    cellGroups_eq, fun c => ?_, fun g gs others hgs => ⟨?_, ?_, fun hg => ?_⟩,
    fun b others => huntLine_skip, fun align symbols => nextRow_of_lt align,
    fun n symbols others i s t => ⟨fun h => receiveLine_of_none h n, fun h he => receiveLine_of_some h he n⟩⟩
  · rw [decodeGroups, judgeGroups_cellGroups]
  · rw [decodeGroups, (hfill marked).mpr rfl]
  · rw [cellCheck_eq_foldl, msbs, List.foldl_map]
    rfl
  · exact alignedLine_cell .locked hgs
  · refine (alignedLine_cell .confirming hgs).trans ?_
    refine congrArg (fun i => some (i, others)) ?_
    by_cases hg : g = cellStart
    · rw [if_pos hg, decodeGroups]
      exact if_congr ((hfill gs).trans (and_iff_right hg).symm) rfl rfl
    · rw [if_neg hg, if_neg (by nofun)]
      exact (if_neg fun h => hg h.1).symm
  · subst hg
    exact huntLine_cell hgs

end Sys2Proof.Machine
end
